-- ==== Sys2Proof/Word.lean ====
section
/-! DEFINITION. The machine's two word types (spec/00_scope.md R8): `u8` and `u16`, all arithmetic on them modulo. -/

namespace Sys2Proof

/-- `u8` of R8: a byte, a general register, an immediate `n` or `e`. -/
abbrev Byte := BitVec 8

/-- `u16` of R8: an address, SP, PC, a register pair, an immediate `nn`. -/
abbrev Word := BitVec 16

end Sys2Proof
end

