-- ==== Sys2Proof/Machine/Bits.lean ====
section
/-! DEFINITION. Byte order and bit-field helpers of spec/00_scope.md R8 and R10: halves, joining, extension, single bits. -/

namespace Sys2Proof.Machine

/-- `v[15:8]`. -/
def hiByte (v : Word) : Byte := v.extractLsb' 8 8

/-- `v[7:0]`. -/
def loByte (v : Word) : Byte := v.extractLsb' 0 8

/-- `hi ++ lo` (R8: the left operand is the more significant). -/
def joinBytes (hi lo : Byte) : Word := hi ++ lo

/-- `sext_16(v)` of R8. -/
def sext16 (v : Byte) : Word := v.signExtend 16

/-- `zext_16(v)` of R8. -/
def zext16 (v : Byte) : Word := v.setWidth 16

/-- `~(1 << i)` in a byte. -/
def clearBit (i : Nat) (v : Byte) : Byte := v &&& ~~~(1#8 <<< i)

/-- `1 << i` set in a byte. -/
def setBit (i : Nat) (v : Byte) : Byte := v ||| (1#8 <<< i)

/-- A condition as the number 0 or 1. -/
def bit (b : Bool) : Nat := if b then 1 else 0

end Sys2Proof.Machine
end

