-- ==== Sys2Proof/Syntax.lean ====
section
/-! DEFINITION. The instructions of SM83-DMG, one constructor per row of spec/opcode_table.json (30_encoding.md R100 to R119).
The letter M in a name stands for the operand `(HL)`, the byte in memory at HL (R106 code 110). -/

namespace Sys2Proof

/-- The seven registers an 8-bit operand code names (R106, code 110 excluded). -/
inductive Reg8 where
  | b | c | d | e | h | l | a
deriving DecidableEq, Repr

/-- Table `rr` of R107. -/
inductive Pair where
  | bc | de | hl | sp
deriving DecidableEq, Repr

/-- Table `qq` of R107. -/
inductive StackPair where
  | bc | de | hl | af
deriving DecidableEq, Repr

/-- Condition codes of R108. -/
inductive Cond where
  | nz | z | nc | c
deriving DecidableEq, Repr

/-- One constructor per row of spec/opcode_table.json. -/
inductive Instr where
  -- 40_load8.md
  | ldRR (d s : Reg8)          -- R130
  | ldRN (d : Reg8) (n : Byte) -- R131
  | ldRM (d : Reg8)            -- R132
  | ldMR (s : Reg8)            -- R133
  | ldMN (n : Byte)            -- R134
  | ldABc                      -- R135
  | ldADe                      -- R136
  | ldBcA                      -- R137
  | ldDeA                      -- R138
  | ldANn (nn : Word)          -- R139
  | ldNnA (nn : Word)          -- R140
  | ldhAC                      -- R141
  | ldhCA                      -- R142
  | ldhAN (n : Byte)           -- R143
  | ldhNA (n : Byte)           -- R144
  | ldAHli                     -- R145
  | ldAHld                     -- R146
  | ldHliA                     -- R147
  | ldHldA                     -- R148
  -- 41_load16.md
  | ldRrNn (p : Pair) (nn : Word) -- R160
  | ldNnSp (nn : Word)         -- R161
  | ldSpHl                     -- R162
  | ldHlSpE (e : Byte)         -- R163
  | push (q : StackPair)       -- R164
  | pop (q : StackPair)        -- R165
  -- 42_alu8.md
  | addR (s : Reg8) | addM | addN (n : Byte) -- R181
  | adcR (s : Reg8) | adcM | adcN (n : Byte) -- R182
  | subR (s : Reg8) | subM | subN (n : Byte) -- R183
  | sbcR (s : Reg8) | sbcM | sbcN (n : Byte) -- R184
  | andR (s : Reg8) | andM | andN (n : Byte) -- R185
  | xorR (s : Reg8) | xorM | xorN (n : Byte) -- R186
  | orR (s : Reg8) | orM | orN (n : Byte)    -- R187
  | cpR (s : Reg8) | cpM | cpN (n : Byte)    -- R188
  | incR (d : Reg8)            -- R189
  | incM                       -- R190
  | decR (d : Reg8)            -- R191
  | decM                       -- R192
  | daa                        -- R193
  | cpl                        -- R194
  | scf                        -- R195
  | ccf                        -- R196
  -- 43_alu16.md
  | addHlRr (p : Pair)         -- R220
  | incRr (p : Pair)           -- R221
  | decRr (p : Pair)           -- R222
  | addSpE (e : Byte)          -- R223
  -- 44_rotate_shift_bit.md, base set
  | rlca                       -- R230
  | rrca                       -- R231
  | rla                        -- R232
  | rra                        -- R233
  -- 45_control.md
  | jpNn (nn : Word)           -- R261
  | jpCcNn (cc : Cond) (nn : Word) -- R262
  | jpHl                       -- R263
  | jrE (e : Byte)             -- R264
  | jrCcE (cc : Cond) (e : Byte) -- R265
  | callNn (nn : Word)         -- R266
  | callCcNn (cc : Cond) (nn : Word) -- R267
  | ret                        -- R268
  | retCc (cc : Cond)          -- R269
  | reti                       -- R270
  | rst (t : BitVec 3)         -- R271
  -- 46_misc_system.md
  | nop                        -- R290
  | halt                       -- R291
  | stop (n : Byte)            -- R292, n the ignored padding byte
  | di                         -- R293
  | ei                         -- R294
  /-- Row `PREFIX_CB` (R104): the prefix with its second byte not looked up. Not well-formed: R111's rows own its words. -/
  | prefixCb (op2 : Byte)
  -- the eleven illegal opcodes, R295
  | illegalD3 | illegalDB | illegalDD | illegalE3 | illegalE4 | illegalEB
  | illegalEC | illegalED | illegalF4 | illegalFC | illegalFD
  -- 44_rotate_shift_bit.md, extended set
  | rlcR (r : Reg8) | rlcM     -- R235
  | rrcR (r : Reg8) | rrcM     -- R236
  | rlR (r : Reg8) | rlM       -- R237
  | rrR (r : Reg8) | rrM       -- R238
  | slaR (r : Reg8) | slaM     -- R239
  | sraR (r : Reg8) | sraM     -- R240
  | swapR (r : Reg8) | swapM   -- R241
  | srlR (r : Reg8) | srlM     -- R242
  | bitR (b : BitVec 3) (r : Reg8) | bitM (b : BitVec 3) -- R243
  | resR (b : BitVec 3) (r : Reg8) | resM (b : BitVec 3) -- R244
  | setR (b : BitVec 3) (r : Reg8) | setM (b : BitVec 3) -- R245
deriving DecidableEq, Repr

end Sys2Proof
end

