-- ==== Sys2Proof/WellFormed.lean ====
section
/-! DEFINITION. Which terms of Instr are instructions of the machine.
The types of Syntax.lean already exclude register code 110, bit numbers above 7 and the like; one check is left. -/

namespace Sys2Proof

/-- R104: "The prefix and its second byte are one instruction", and R111 gives all 256 of them rows of their own,
so the row `PREFIX_CB` by itself is no instruction. Log entry 14. -/
def Instr.isBarePrefix : Instr → Bool
  | .prefixCb _ => true
  | _ => false

/-- A term the decoder can yield and the encoder can write. -/
def Instr.wellFormed (i : Instr) : Bool := !i.isBarePrefix

end Sys2Proof
end

