-- ==== Sys2Proof/Decode.lean ====
section
/-! DEFINITION. The decoder (spec/30_encoding.md R105 to R116) and, after it, the encoder, both from the encoding tables. -/

namespace Sys2Proof

open Machine (joinBytes hiByte loByte)

/-! ### Fields, R105 to R108 -/

/-- `x = op[7:6]`. -/
def fieldX (op : Byte) : Nat := op.toNat / 64
/-- `y = op[5:3]`. -/
def fieldY (op : Byte) : Nat := op.toNat / 8 % 8
/-- `z = op[2:0]`. -/
def fieldZ (op : Byte) : Nat := op.toNat % 8
/-- `p = op[5:4]`. -/
def fieldP (op : Byte) : Nat := op.toNat / 16 % 4
/-- `q = op[3]`. -/
def fieldQ (op : Byte) : Nat := op.toNat / 8 % 2
/-- `c = op[4:3]`, the condition code. -/
def fieldCc (op : Byte) : Nat := op.toNat / 8 % 4

/-- R106: the operand a 3-bit code names; `none` is code 110, `(HL)`. -/
def reg8Of (code : Nat) : Option Reg8 :=
  match code with
  | 0 => some .b
  | 1 => some .c
  | 2 => some .d
  | 3 => some .e
  | 4 => some .h
  | 5 => some .l
  | 6 => none
  | _ => some .a

/-- R107, table rr. -/
def pairOf (code : Nat) : Pair :=
  match code with
  | 0 => .bc
  | 1 => .de
  | 2 => .hl
  | _ => .sp

/-- R107, table qq. -/
def stackPairOf (code : Nat) : StackPair :=
  match code with
  | 0 => .bc
  | 1 => .de
  | 2 => .hl
  | _ => .af

/-- R108. -/
def condOf (code : Nat) : Cond :=
  match code with
  | 0 => .nz
  | 1 => .z
  | 2 => .nc
  | _ => .c

/-- A row with the operand `r` or its `(HL)` form, by R106's code. -/
def regOrMem (code : Nat) (r : Reg8 → Instr) (m : Instr) : Instr :=
  match reg8Of code with
  | some x => r x
  | none => m

/-! ### The extended set, R111 -/

/-- The CB_OP instruction that R111 gives for the second byte. -/
def decodeCb (op2 : Byte) : Instr :=
  let z := fieldZ op2
  let b := BitVec.ofNat 3 (fieldY op2)
  match fieldX op2 with
  | 0 =>
    match fieldY op2 with
    | 0 => regOrMem z .rlcR .rlcM
    | 1 => regOrMem z .rrcR .rrcM
    | 2 => regOrMem z .rlR .rlM
    | 3 => regOrMem z .rrR .rrM
    | 4 => regOrMem z .slaR .slaM
    | 5 => regOrMem z .sraR .sraM
    | 6 => regOrMem z .swapR .swapM
    | _ => regOrMem z .srlR .srlM
  | 1 => regOrMem z (.bitR b) (.bitM b)
  | 2 => regOrMem z (.resR b) (.resM b)
  | _ => regOrMem z (.setR b) (.setM b)

/-! ### The base set, R110 -/

/-- Rows 0x, 1x, 2x, 3x of R110. `n` is byte 2 and `nn` bytes 3 ++ 2. -/
def decodeX0 (op n : Byte) (nn : Word) : Instr :=
  let y := fieldY op
  let p := pairOf (fieldP op)
  match fieldZ op with
  | 0 =>
    match y with
    | 0 => .nop
    | 1 => .ldNnSp nn
    | 2 => .stop n
    | 3 => .jrE n
    | _ => .jrCcE (condOf (fieldCc op)) n
  | 1 => if fieldQ op = 0 then .ldRrNn p nn else .addHlRr p
  | 2 =>
    match y with
    | 0 => .ldBcA
    | 1 => .ldABc
    | 2 => .ldDeA
    | 3 => .ldADe
    | 4 => .ldHliA
    | 5 => .ldAHli
    | 6 => .ldHldA
    | _ => .ldAHld
  | 3 => if fieldQ op = 0 then .incRr p else .decRr p
  | 4 => regOrMem y .incR .incM
  | 5 => regOrMem y .decR .decM
  | 6 => regOrMem y (fun d => .ldRN d n) (.ldMN n)
  | _ =>
    match y with
    | 0 => .rlca
    | 1 => .rrca
    | 2 => .rla
    | 3 => .rra
    | 4 => .daa
    | 5 => .cpl
    | 6 => .scf
    | _ => .ccf

/-- Rows 4x to 7x: LD d,s, with HALT at d = s = 110 (R106). -/
def decodeX1 (op : Byte) : Instr :=
  match reg8Of (fieldY op), reg8Of (fieldZ op) with
  | some d, some s => .ldRR d s
  | some d, none => .ldRM d
  | none, some s => .ldMR s
  | none, none => .halt

/-- Rows 8x to Bx: ALU operation y on operand z. -/
def decodeX2 (op : Byte) : Instr :=
  let z := fieldZ op
  match fieldY op with
  | 0 => regOrMem z .addR .addM
  | 1 => regOrMem z .adcR .adcM
  | 2 => regOrMem z .subR .subM
  | 3 => regOrMem z .sbcR .sbcM
  | 4 => regOrMem z .andR .andM
  | 5 => regOrMem z .xorR .xorM
  | 6 => regOrMem z .orR .orM
  | _ => regOrMem z .cpR .cpM

/-- Rows Cx to Fx. -/
def decodeX3 (op n : Byte) (nn : Word) : Instr :=
  let y := fieldY op
  let cc := condOf (fieldCc op)
  match fieldZ op with
  | 0 =>
    match y with
    | 4 => .ldhNA n
    | 5 => .addSpE n
    | 6 => .ldhAN n
    | 7 => .ldHlSpE n
    | _ => .retCc cc
  | 1 =>
    match y with
    | 1 => .ret
    | 3 => .reti
    | 5 => .jpHl
    | 7 => .ldSpHl
    | _ => .pop (stackPairOf (fieldP op))
  | 2 =>
    match y with
    | 4 => .ldhCA
    | 5 => .ldNnA nn
    | 6 => .ldhAC
    | 7 => .ldANn nn
    | _ => .jpCcNn cc nn
  | 3 =>
    match y with
    | 0 => .jpNn nn
    | 1 => decodeCb n
    | 2 => .illegalD3
    | 3 => .illegalDB
    | 4 => .illegalE3
    | 5 => .illegalEB
    | 6 => .di
    | _ => .ei
  | 4 =>
    match y with
    | 4 => .illegalE4
    | 5 => .illegalEC
    | 6 => .illegalF4
    | 7 => .illegalFC
    | _ => .callCcNn cc nn
  | 5 =>
    match y with
    | 1 => .callNn nn
    | 3 => .illegalDD
    | 5 => .illegalED
    | 7 => .illegalFD
    | _ => .push (stackPairOf (fieldP op))
  | 6 =>
    match y with
    | 0 => .addN n
    | 1 => .adcN n
    | 2 => .subN n
    | 3 => .sbcN n
    | 4 => .andN n
    | 5 => .xorN n
    | 6 => .orN n
    | _ => .cpN n
  | _ => .rst (BitVec.ofNat 3 y)

/-- R113: the instruction that starts with these three bytes, total; bytes beyond its length are not looked at.
The eleven illegal opcodes give their ILLEGAL row (R114). -/
def decode (b0 b1 b2 : Byte) : Instr :=
  match fieldX b0 with
  | 0 => decodeX0 b0 b1 (joinBytes b2 b1)
  | 1 => decodeX1 b0
  | 2 => decodeX2 b0
  | _ => decodeX3 b0 b1 (joinBytes b2 b1)

/-- R112, R116: the length in bytes, from the first byte alone. -/
def opcodeLength (op : Byte) : Nat :=
  let y := fieldY op
  match fieldX op with
  | 0 =>
    match fieldZ op with
    | 0 => if y = 0 then 1 else if y = 1 then 3 else 2
    | 1 => if fieldQ op = 0 then 3 else 1
    | 6 => 2
    | _ => 1
  | 1 => 1
  | 2 => 1
  | _ =>
    match fieldZ op with
    | 0 => if y < 4 then 1 else 2
    | 2 => if y < 4 ∨ y = 5 ∨ y = 7 then 3 else 1
    | 3 => if y = 0 then 3 else if y = 1 then 2 else 1
    | 4 => if y < 4 then 3 else 1
    | 5 => if y = 1 then 3 else 1
    | 6 => 2
    | _ => 1

/-- Why a byte sequence is no instruction: it ends too soon. -/
inductive DecodeError where
  | noBytes
  | truncated (op : Byte)
deriving DecidableEq, Repr

/-- R113 on a byte sequence: the instruction at its head and the rest, or a rejection by name. -/
def decodeBytes : List Byte → Except DecodeError (Instr × List Byte)
  | [] => .error .noBytes
  | op :: rest =>
    if opcodeLength op ≤ rest.length + 1 then
      .ok (decode op (rest.getD 0 0) (rest.getD 1 0), rest.drop (opcodeLength op - 1))
    else .error (.truncated op)

/-- The bytes of an opcode-table word of `nbits` bits, first byte first. A 16-bit word whose high byte is 0xCB is
numbered as the table numbers its CB_OP rows, "byte 1 in the high half" (R119); every other word has its first byte
lowest. Bits above `nbits` are 0. Log entry 15. -/
def tableBytes (nbits w : Nat) : Byte × Byte × Byte :=
  let v := BitVec.ofNat 24 (w % 2 ^ nbits)
  let b0 := v.extractLsb' 0 8
  let b1 := v.extractLsb' 8 8
  let b2 := v.extractLsb' 16 8
  if nbits = 16 ∧ b1 = 0xCB#8 then (b1, b0, 0) else (b0, b1, b2)

/-- The decoder on an opcode-table word. -/
def decodeTableWord (nbits w : Nat) : Option Instr :=
  let (b0, b1, b2) := tableBytes nbits w
  some (decode b0 b1 b2)

/-! ### The encoder -/

/-- R106. -/
def reg8Code : Reg8 → Byte
  | .b => 0
  | .c => 1
  | .d => 2
  | .e => 3
  | .h => 4
  | .l => 5
  | .a => 7

/-- R107, table rr. -/
def pairCode : Pair → Byte
  | .bc => 0
  | .de => 1
  | .hl => 2
  | .sp => 3

/-- R107, table qq. -/
def stackPairCode : StackPair → Byte
  | .bc => 0
  | .de => 1
  | .hl => 2
  | .af => 3

/-- R108. -/
def condCode : Cond → Byte
  | .nz => 0
  | .z => 1
  | .nc => 2
  | .c => 3

/-- A 3-bit field at bits 5:3. -/
def atY (v : Byte) : Byte := v <<< 3
/-- A 2-bit pair field at bits 5:4. -/
def atP (v : Byte) : Byte := v <<< 4

/-- Format OP_NN, R103. -/
def withWord (op : Byte) (nn : Word) : List Byte := [op, loByte nn, hiByte nn]

/-- Format CB_OP, R104. -/
def withCb (op2 : Byte) : List Byte := [0xCB, op2]

/-- A bit number at y2. -/
def bitField (b : BitVec 3) : Byte := atY (b.setWidth 8)

/-- The bytes of an instruction, each from the encoding its rule gives. -/
def encode : Instr → List Byte
  | .ldRR d s => [0x40 ||| atY (reg8Code d) ||| reg8Code s]
  | .ldRN d n => [0x06 ||| atY (reg8Code d), n]
  | .ldRM d => [0x46 ||| atY (reg8Code d)]
  | .ldMR s => [0x70 ||| reg8Code s]
  | .ldMN n => [0x36, n]
  | .ldABc => [0x0A]
  | .ldADe => [0x1A]
  | .ldBcA => [0x02]
  | .ldDeA => [0x12]
  | .ldANn nn => withWord 0xFA nn
  | .ldNnA nn => withWord 0xEA nn
  | .ldhAC => [0xF2]
  | .ldhCA => [0xE2]
  | .ldhAN n => [0xF0, n]
  | .ldhNA n => [0xE0, n]
  | .ldAHli => [0x2A]
  | .ldAHld => [0x3A]
  | .ldHliA => [0x22]
  | .ldHldA => [0x32]
  | .ldRrNn p nn => withWord (0x01 ||| atP (pairCode p)) nn
  | .ldNnSp nn => withWord 0x08 nn
  | .ldSpHl => [0xF9]
  | .ldHlSpE e => [0xF8, e]
  | .push q => [0xC5 ||| atP (stackPairCode q)]
  | .pop q => [0xC1 ||| atP (stackPairCode q)]
  | .addR s => [0x80 ||| reg8Code s]
  | .addM => [0x86]
  | .addN n => [0xC6, n]
  | .adcR s => [0x88 ||| reg8Code s]
  | .adcM => [0x8E]
  | .adcN n => [0xCE, n]
  | .subR s => [0x90 ||| reg8Code s]
  | .subM => [0x96]
  | .subN n => [0xD6, n]
  | .sbcR s => [0x98 ||| reg8Code s]
  | .sbcM => [0x9E]
  | .sbcN n => [0xDE, n]
  | .andR s => [0xA0 ||| reg8Code s]
  | .andM => [0xA6]
  | .andN n => [0xE6, n]
  | .xorR s => [0xA8 ||| reg8Code s]
  | .xorM => [0xAE]
  | .xorN n => [0xEE, n]
  | .orR s => [0xB0 ||| reg8Code s]
  | .orM => [0xB6]
  | .orN n => [0xF6, n]
  | .cpR s => [0xB8 ||| reg8Code s]
  | .cpM => [0xBE]
  | .cpN n => [0xFE, n]
  | .incR d => [0x04 ||| atY (reg8Code d)]
  | .incM => [0x34]
  | .decR d => [0x05 ||| atY (reg8Code d)]
  | .decM => [0x35]
  | .daa => [0x27]
  | .cpl => [0x2F]
  | .scf => [0x37]
  | .ccf => [0x3F]
  | .addHlRr p => [0x09 ||| atP (pairCode p)]
  | .incRr p => [0x03 ||| atP (pairCode p)]
  | .decRr p => [0x0B ||| atP (pairCode p)]
  | .addSpE e => [0xE8, e]
  | .rlca => [0x07]
  | .rrca => [0x0F]
  | .rla => [0x17]
  | .rra => [0x1F]
  | .jpNn nn => withWord 0xC3 nn
  | .jpCcNn cc nn => withWord (0xC2 ||| atY (condCode cc)) nn
  | .jpHl => [0xE9]
  | .jrE e => [0x18, e]
  | .jrCcE cc e => [0x20 ||| atY (condCode cc), e]
  | .callNn nn => withWord 0xCD nn
  | .callCcNn cc nn => withWord (0xC4 ||| atY (condCode cc)) nn
  | .ret => [0xC9]
  | .retCc cc => [0xC0 ||| atY (condCode cc)]
  | .reti => [0xD9]
  | .rst t => [0xC7 ||| atY (t.setWidth 8)]
  | .nop => [0x00]
  | .halt => [0x76]
  | .stop n => [0x10, n]
  | .di => [0xF3]
  | .ei => [0xFB]
  | .prefixCb op2 => withCb op2
  | .illegalD3 => [0xD3]
  | .illegalDB => [0xDB]
  | .illegalDD => [0xDD]
  | .illegalE3 => [0xE3]
  | .illegalE4 => [0xE4]
  | .illegalEB => [0xEB]
  | .illegalEC => [0xEC]
  | .illegalED => [0xED]
  | .illegalF4 => [0xF4]
  | .illegalFC => [0xFC]
  | .illegalFD => [0xFD]
  | .rlcR r => withCb (0x00 ||| reg8Code r)
  | .rlcM => withCb 0x06
  | .rrcR r => withCb (0x08 ||| reg8Code r)
  | .rrcM => withCb 0x0E
  | .rlR r => withCb (0x10 ||| reg8Code r)
  | .rlM => withCb 0x16
  | .rrR r => withCb (0x18 ||| reg8Code r)
  | .rrM => withCb 0x1E
  | .slaR r => withCb (0x20 ||| reg8Code r)
  | .slaM => withCb 0x26
  | .sraR r => withCb (0x28 ||| reg8Code r)
  | .sraM => withCb 0x2E
  | .swapR r => withCb (0x30 ||| reg8Code r)
  | .swapM => withCb 0x36
  | .srlR r => withCb (0x38 ||| reg8Code r)
  | .srlM => withCb 0x3E
  | .bitR b r => withCb (0x40 ||| bitField b ||| reg8Code r)
  | .bitM b => withCb (0x46 ||| bitField b)
  | .resR b r => withCb (0x80 ||| bitField b ||| reg8Code r)
  | .resM b => withCb (0x86 ||| bitField b)
  | .setR b r => withCb (0xC0 ||| bitField b ||| reg8Code r)
  | .setM b => withCb (0xC6 ||| bitField b)

/-- R100, R112: the length of an instruction in bytes. -/
def instrLength (i : Instr) : Nat := (encode i).length

end Sys2Proof
end

