-- ==== Sys2Proof/Config.lean ====
section
/-! DEFINITION. The machine's free value. The named parameters of spec/00_scope.md R6 are plain data in State (Machine/Params.lean). -/

namespace Sys2Proof

/-- Which access of a step a bus read is. It only distinguishes the free values two reads of one step may return. -/
inductive Access where
  | fetch0 | fetch1 | fetch2 | dataLo | dataHi | dma
deriving DecidableEq, Repr

/-- `ApuRead(addr)` of 20_memory.md R72: "the model must treat the read value as a draw (any `u8`)".
No body: nothing can be proved of its values. Applied to State's counter `apuSeq`, the access and the address,
so that no two reads need agree. Log entry 8. -/
opaque Config.apuRead : Nat → Access → Word → Byte

end Sys2Proof
end

