-- ==== Sys2Proof/Machine/Blocks.lean ====
section
/-! DEFINITION. The records of the machine's blocks, spec/10_state.md R20 to R42. All plain data. -/

namespace Sys2Proof.Machine

/-- A memory array as (offset, byte) pairs. Canonical form: `Memory.wf` (Machine/Memory.lean). -/
abbrev Memory := List Host.Cell

/-- R21 to R32: the CPU's registers and hidden flags. -/
structure Cpu where
  a : Byte
  f : Byte                -- R24: Z N H C at bits 7 to 4, low nibble always 0
  b : Byte
  c : Byte
  d : Byte
  e : Byte
  h : Byte
  l : Byte
  sp : Word
  pc : Word
  ime : Bool
  halted : Bool
  imePending : Bool       -- R30
  haltBug : Bool          -- R31
  fault : Option Byte     -- R32: none, or InvalidOpcode(op)
deriving DecidableEq, Repr

/-- R37. -/
structure Timer where
  div  : Word             -- div_counter
  tima : Byte
  tma  : Byte
  tac  : BitVec 3
deriving DecidableEq, Repr

/-- R38. -/
structure Dma where
  remaining : Nat
  blocked   : Bool
  page      : Byte
deriving DecidableEq, Repr

/-- R39, R387: the four modes. -/
inductive PpuMode where
  | hblank    -- 0
  | vblank    -- 1
  | oamScan   -- 2
  | transfer  -- 3
deriving DecidableEq, Repr

/-- R39, R415: "originating palette register". -/
inductive PalReg where
  | bgp | obp0 | obp1
deriving DecidableEq, Repr

/-- R39, R415: one entry of the line buffer. -/
structure Pixel where
  index    : BitVec 2
  sprite   : Bool
  priority : Bool
  palette  : PalReg
deriving DecidableEq, Repr

/-- R416: a 2-bit shade. -/
abbrev Shade := BitVec 2

/-- One row of the frame buffer. -/
abbrev Row := Vector Shade 160

/-- R39. -/
structure Ppu where
  lcdc : Byte
  statEn : BitVec 4       -- STAT bits 6:3; bit 0 here is STAT bit 3
  scy : Byte
  scx : Byte
  ly  : Byte
  lyc : Byte
  bgp : Byte
  obp0 : Byte
  obp1 : Byte
  wy : Byte
  wx : Byte
  mode : PpuMode
  lineDot : Nat
  line : Nat
  mode3Len : Nat
  windowLine : Nat
  wyLatch : Bool
  statLine : Bool
  lycPulse : Bool
  lineBuffer : Vector Pixel 160
  frame : Vector Row 144
  frameComplete : Bool
deriving DecidableEq, Repr

/-- R494: the attached device as plain data. `table` is any function of the byte sent (256 entries);
`script` is any sequence of answers. A missing entry answers 0xFF. Log entry 9. -/
inductive SerialDevice where
  | none
  | table (answers : List Byte)
  | script (answers : List Byte)
deriving DecidableEq, Repr

/-- R40, R494. -/
structure Serial where
  sb : Byte
  sc7 : Bool
  sc0 : Bool
  busy : Bool
  internal : Bool
  remaining : Nat
  bits : Nat
  device : SerialDevice
deriving DecidableEq, Repr

/-- R41: the eight buttons. -/
inductive Button where
  | right | left | up | down | a | b | select | start
deriving DecidableEq, Repr

/-- R41. `select` is P1 bits 5:4; a button is true when pressed. -/
structure Joypad where
  select : BitVec 2
  right : Bool
  left : Bool
  up : Bool
  down : Bool
  btnA : Bool
  btnB : Bool
  btnSelect : Bool
  btnStart : Bool
deriving DecidableEq, Repr

/-- 64_cartridge.md R450. -/
structure Mbc1 where
  ramEnable : Bool
  bank1 : BitVec 5
  bank2 : BitVec 2
  mode : Bool
deriving DecidableEq, Repr

/-- R455. -/
structure Mbc2 where
  ramEnable : Bool
  romBank : BitVec 4
deriving DecidableEq, Repr

/-- R465: the five clock registers, stored bits only. DH is day8 (bit 0), halt (bit 6), carry (bit 7). -/
structure Rtc where
  s : BitVec 6
  m : BitVec 6
  h : BitVec 5
  dl : Byte
  day8 : Bool
  halt : Bool
  carry : Bool
deriving DecidableEq, Repr

/-- R460, R465. -/
structure Mbc3 where
  ramEnable : Bool
  romBank : BitVec 7
  ramSel : BitVec 4
  latchPrev : Bool
  live : Rtc
  latched : Rtc
  rtcSub : Nat
deriving DecidableEq, Repr

/-- R472. -/
structure Mbc5 where
  ramEnable : Bool
  romBank : BitVec 9
  ramBank : BitVec 4
deriving DecidableEq, Repr

/-- R441's `MAPPER` with the bank-select state of each scheme. -/
inductive Mapper where
  | noMapper
  | mbc1 (m : Mbc1)
  | mbc2 (m : Mbc2)
  | mbc3 (m : Mbc3)
  | mbc5 (m : Mbc5)
deriving DecidableEq, Repr

/-- R440, R441: what the header fixes. -/
structure CartConfig where
  romBanks : Nat
  ramSize  : Nat
  hasClock : Bool
  rumble   : Bool
deriving DecidableEq, Repr

/-- R42, R440: the cartridge. `rom` is never written by a step (R440, R478 (2)). -/
structure Cart where
  config : CartConfig
  rom    : Memory
  eram   : Memory
  mapper : Mapper
deriving DecidableEq, Repr

/-- 60_exceptions.md R340: what the host may do between two steps. -/
inductive HostEvent where
  | button (b : Button) (pressed : Bool)  -- (c), R501
  | serialPulse                           -- (d), R495
  | attach (dev : SerialDevice)           -- (d), R494; `attach .none` detaches
  | takeFrame                             -- (e), R416
  | reset (keepEram : Bool)               -- (a), R511; keepEram: external RAM is carried over as the saved image
deriving DecidableEq, Repr

end Sys2Proof.Machine
end

