-- ==== Sys2Proof/Machine/ResetValues.lean ====
section
/-! DEFINITION. The recommended reset value of every block, spec/10_state.md R45 and 64_cartridge.md R476. They are the defaults
of the parameters `RESET_<name>` (Machine/Params.lean). -/

namespace Sys2Proof.Machine

def cpuReset : Cpu :=
  { a := 0x01, f := 0xB0, b := 0x00, c := 0x13, d := 0x00, e := 0xD8, h := 0x01, l := 0x4D
    sp := 0xFFFE, pc := 0x0100
    ime := false, halted := false, imePending := false, haltBug := false, fault := none }

def timerReset : Timer := { div := 0xABCC, tima := 0x00, tma := 0x00, tac := 0b000 }

def dmaReset : Dma := { remaining := 0, blocked := false, page := 0xFF }

/-- R398: a blank line-buffer entry. -/
def blankPixel : Pixel := { index := 0, sprite := false, priority := false, palette := .bgp }

def blankLineBuffer : Vector Pixel 160 := Vector.replicate 160 blankPixel

def blankFrame : Vector Row 144 := Vector.replicate 144 (Vector.replicate 160 0#2)

/-- R45. OBP0 and OBP1 are unspecified there; 0xFF is the model's choice (log entry 1). -/
def ppuReset : Ppu :=
  { lcdc := 0x91, statEn := 0, scy := 0, scx := 0, ly := 0, lyc := 0
    bgp := 0xFC, obp0 := 0xFF, obp1 := 0xFF, wy := 0, wx := 0
    mode := .oamScan, lineDot := 0, line := 0, mode3Len := 172
    windowLine := 0, wyLatch := true, statLine := false, lycPulse := false
    lineBuffer := blankLineBuffer, frame := blankFrame, frameComplete := false }

/-- R45, R497: "idle, counters 0". The clock mode of an idle port (`serial_internal`) is not given; false is the model's
choice (log entry 23). -/
def serialReset : Serial :=
  { sb := 0x00, sc7 := false, sc0 := false, busy := false, internal := false
    remaining := 0, bits := 0, device := .none }

def joypadReset : Joypad :=
  { select := 0b00, right := false, left := false, up := false, down := false
    btnA := false, btnB := false, btnSelect := false, btnStart := false }

/-- The clock at launch: "supplied by the host and otherwise unspecified" (R476); 0 is the model's choice (log entry 4). -/
def rtcZero : Rtc := { s := 0, m := 0, h := 0, dl := 0, day8 := false, halt := false, carry := false }

def mbc1Reset : Mbc1 := { ramEnable := false, bank1 := 1, bank2 := 0, mode := false }
def mbc2Reset : Mbc2 := { ramEnable := false, romBank := 1 }
def mbc3Reset : Mbc3 :=
  { ramEnable := false, romBank := 1, ramSel := 0, latchPrev := false
    live := rtcZero, latched := rtcZero, rtcSub := 0 }
def mbc5Reset : Mbc5 := { ramEnable := false, romBank := 1, ramBank := 0 }

/-- The cartridge of State.reset: no mapper, 32 KB of ROM with nothing listed, no RAM (log entry 3). -/
def cartReset : Cart :=
  { config := { romBanks := 2, ramSize := 0, hasClock := false, rumble := false }
    rom := [], eram := [], mapper := .noMapper }

end Sys2Proof.Machine
end

