-- ==== Sys2Proof/Machine/Params.lean ====
section
/-! DEFINITION. The named parameters of spec/00_scope.md R6, as plain data a launch fixes and no step changes (log entry 5). -/

namespace Sys2Proof.Machine

/-- `STOP_MODE` of R6 and 46_misc_system.md R292. -/
inductive StopMode where
  | refuse | nop2
deriving DecidableEq, Repr

/-- `SPRITE_SELECT` of R6 and 63_ppu.md R405. -/
inductive SpriteSelect where
  | oamOrderThenX | xThenOam
deriving DecidableEq, Repr

/-- `MODE3_LEN` of R6 and 63_ppu.md R392: the recommended formula, or any function of the three inputs,
given as its table (entry 16·sprites + 2·scx_low + window). Log entry 7. -/
inductive Mode3Fn where
  | formula
  | table (entries : List Nat)
deriving DecidableEq, Repr

/-- `RAM_INIT` of R6 and 70_reset_and_hazards.md R513, one array each. -/
structure RamInit where
  vram : Memory
  wram : Memory
  oam  : Memory
  hram : Memory
  eram : Memory
deriving DecidableEq, Repr

/-- `RESET_<name>` of R6, 10_state.md R45 and 92_eei_decisions.md D14: the value of every piece of state at reset, block by
block, the bank-select registers of 64_cartridge.md R476 among them. Three entries are not used, since a reset takes the
value from elsewhere: `cpu.fault` (R511 step 4: none), `serial.device` (SERIAL_DEVICE), the clock of `mbc3` (the
cartridge's own, R476). Log entry 5. -/
structure ResetParams where
  cpu    : Cpu
  ifReg  : BitVec 5
  ie     : Byte
  timer  : Timer
  dma    : Dma
  ppu    : Ppu
  serial : Serial
  joypad : Joypad
  mbc1   : Mbc1
  mbc2   : Mbc2
  mbc3   : Mbc3
  mbc5   : Mbc5
deriving DecidableEq, Repr

/-- The table of R45 and the values of R476. -/
def ResetParams.recommended : ResetParams :=
  { cpu := cpuReset
    ifReg := 0x01
    ie := 0x00
    timer := timerReset
    dma := dmaReset
    ppu := ppuReset
    serial := serialReset
    joypad := joypadReset
    mbc1 := mbc1Reset
    mbc2 := mbc2Reset
    mbc3 := mbc3Reset
    mbc5 := mbc5Reset }

/-- R476: the bank-select state after reset; the MBC3 clock is kept, as it survives power-off. -/
def ResetParams.mapper (rp : ResetParams) : Mapper → Mapper
  | .noMapper => .noMapper
  | .mbc1 _ => .mbc1 rp.mbc1
  | .mbc2 _ => .mbc2 rp.mbc2
  | .mbc3 m => .mbc3 { rp.mbc3 with live := m.live, latched := m.latched, rtcSub := m.rtcSub }
  | .mbc5 _ => .mbc5 rp.mbc5

structure Params where
  dmaCycles         : Nat           -- DMA_CYCLES
  intDispatchCycles : Nat           -- INT_DISPATCH_CYCLES
  haltTickCycles    : Nat           -- HALT_TICK_CYCLES
  vramBlockedMode2  : Bool          -- VRAM_BLOCKED_IN_MODE2
  mode3Fn           : Mode3Fn       -- MODE3_LEN
  spriteSelect      : SpriteSelect  -- SPRITE_SELECT
  stopMode          : StopMode      -- STOP_MODE
  eiDelay           : Bool          -- EI_DELAY
  ramInit           : RamInit       -- RAM_INIT
  resetValues       : ResetParams   -- RESET_<name>
deriving DecidableEq, Repr

/-- RAM_INIT with nothing listed: every byte reads as `Memory.unlisted` (log entry 2). -/
def RamInit.empty : RamInit := { vram := [], wram := [], oam := [], hram := [], eram := [] }

/-- The values R6 recommends, but for STOP_MODE: `nop2`, the setting under which STOP has an effect (log entry 6). -/
def Params.recommended : Params :=
  { dmaCycles := 160
    intDispatchCycles := 20
    haltTickCycles := 4
    vramBlockedMode2 := true
    mode3Fn := .formula
    spriteSelect := .oamOrderThenX
    stopMode := .nop2
    eiDelay := true
    ramInit := RamInit.empty
    resetValues := ResetParams.recommended }

end Sys2Proof.Machine
end

