-- ==== Sys2Proof/Machine/State.lean ====
section
/-! DEFINITION. The machine's state (spec/10_state.md R20), the ways a step can stop, and the state after reset (R45). -/

namespace Sys2Proof.Machine

/-- R20: "The whole state of DMG-CORE", with the launch inputs of R43 and three fields of the model's own. -/
structure State where
  /-- R21 to R32. -/
  cpu : Cpu
  /-- IF, R33: bit i is 1 when interrupt i is requested. -/
  ifReg : BitVec 5
  /-- IE, R34. -/
  ie : Byte
  /-- R36: keyed by offset from 8000, C000, FE00 and FF80. -/
  vram : Memory
  wram : Memory
  oam : Memory
  hram : Memory
  timer : Timer
  dma : Dma
  ppu : Ppu
  serial : Serial
  joypad : Joypad
  cart : Cart
  /-- Launch input: the parameters of 00_scope.md R6 (log entry 5). -/
  params : Params
  /-- The model's own: host events still to come, one batch before each step (R506, log entry 10). -/
  inputs : List (List HostEvent)
  /-- The model's own: the cycle count the last CpuStep returned (R11, R310; log entry 11). -/
  cycles : Nat
  /-- The model's own: indexes the free value of APU reads (R72, log entry 8). -/
  apuSeq : Nat
deriving DecidableEq, Repr

/-- How a step can stop with a fault. -/
inductive Fault where
  /-- 60_exceptions.md R312, 46_misc_system.md R295: raised by the eleven illegal opcodes, and by every step while the
  fault stands. Safe: the spec gives the same terminal outcome. -/
  | invalidOpcode (op : Byte)
deriving DecidableEq, Repr

/-- How a step can be refused. -/
inductive Refusal where
  /-- An arm of exec without a meaning yet. Safe. No arm answers it. -/
  | notModelled (mnemonic : String)
  /-- 46_misc_system.md R292: STOP executed under STOP_MODE = refuse. Safe: the spec sets a refusal mark there. -/
  | stopHasNoMeaning
deriving DecidableEq, Repr

/-- R45, R511: the machine right after reset. -/
def State.reset : State :=
  { cpu := cpuReset
    ifReg := 0x01
    ie := 0x00
    vram := [], wram := [], oam := [], hram := []
    timer := timerReset
    dma := dmaReset
    ppu := ppuReset
    serial := serialReset
    joypad := joypadReset
    cart := cartReset
    params := Params.recommended
    inputs := []
    cycles := 0
    apuSeq := 0 }

/-- What a meaning, and a step, answers. -/
abbrev Result := Host.Outcome State Fault Refusal

end Sys2Proof.Machine
end

