-- ==== Sys2Proof/Machine/Memory.lean ====
section
/-! DEFINITION. Memory arrays as canonical lists of (offset, byte): read, write, the canonical form. -/

namespace Sys2Proof.Machine

/-- What a byte that nothing has written reads as (RAM_INIT and ROM not listed; log entries 2 and 3). -/
def Memory.unlisted : Byte := 0x00

/-- Offsets strictly rising, every one of them above `lo` where `lo` is given, and no listed byte equal to `unlisted`. -/
def Memory.wfFrom : Option Nat → Memory → Bool
  | _, [] => true
  | lo, (k, v) :: t => (lo.all (· < k)) && (v != Memory.unlisted) && Memory.wfFrom (some k) t

/-- The canonical form: equal memories are equal lists. -/
def Memory.wf (m : Memory) : Bool := Memory.wfFrom none m

def Memory.read : Memory → Nat → Byte
  | [], _ => Memory.unlisted
  | (k, v) :: t, a => if k = a then v else Memory.read t a

/-- Keeps the canonical form: writing what an unlisted byte reads as removes the entry. -/
def Memory.write : Memory → Nat → Byte → Memory
  | [], a, v => if v = Memory.unlisted then [] else [(a, v)]
  | (k, w) :: t, a, v =>
    if a < k then if v = Memory.unlisted then (k, w) :: t else (a, v) :: (k, w) :: t
    else if k = a then if v = Memory.unlisted then t else (a, v) :: t
    else (k, w) :: Memory.write t a v

/-- Every array of the machine is in canonical form. -/
def State.memWf (s : State) : Bool :=
  s.vram.wf && s.wram.wf && s.oam.wf && s.hram.wf && s.cart.rom.wf && s.cart.eram.wf

end Sys2Proof.Machine
end

