-- ==== Sys2Proof/Machine/Cart.lean ====
section
/-! DEFINITION. The cartridge: header, windows, bank controllers, clock (spec/64_cartridge.md R440 to R479). -/

namespace Sys2Proof.Machine

/-! ### Header and load, R441 -/

/-- Why an image makes no machine (R441, R479): a load error, not a step outcome. -/
inductive LoadError where
  | tooShort
  | unknownType (t : Byte)
  | badRomSize (n : Byte)
  | badRamSize (n : Byte)
  | lengthMismatch
deriving DecidableEq, Repr

/-- What the type byte at 0147 names. -/
structure CartType where
  mapper   : Mapper
  hasRam   : Bool
  hasClock : Bool
  rumble   : Bool
deriving DecidableEq, Repr

/-- A type with the given scheme and no clock or motor. -/
def plainType (m : Mapper) (hasRam : Bool) : CartType :=
  { mapper := m, hasRam := hasRam, hasClock := false, rumble := false }

/-- R441, the values of 0147. -/
def cartTypeOf (t : Byte) : Option CartType :=
  match t.toNat with
  | 0x00 => some (plainType .noMapper false)
  | 0x08 => some (plainType .noMapper true)
  | 0x09 => some (plainType .noMapper true)
  | 0x01 => some (plainType (.mbc1 mbc1Reset) false)
  | 0x02 => some (plainType (.mbc1 mbc1Reset) true)
  | 0x03 => some (plainType (.mbc1 mbc1Reset) true)
  | 0x05 => some (plainType (.mbc2 mbc2Reset) true)
  | 0x06 => some (plainType (.mbc2 mbc2Reset) true)
  | 0x0F => some { plainType (.mbc3 mbc3Reset) false with hasClock := true }
  | 0x10 => some { plainType (.mbc3 mbc3Reset) true with hasClock := true }
  | 0x11 => some (plainType (.mbc3 mbc3Reset) false)
  | 0x12 => some (plainType (.mbc3 mbc3Reset) true)
  | 0x13 => some (plainType (.mbc3 mbc3Reset) true)
  | 0x19 => some (plainType (.mbc5 mbc5Reset) false)
  | 0x1A => some (plainType (.mbc5 mbc5Reset) true)
  | 0x1B => some (plainType (.mbc5 mbc5Reset) true)
  | 0x1C => some { plainType (.mbc5 mbc5Reset) false with rumble := true }
  | 0x1D => some { plainType (.mbc5 mbc5Reset) true with rumble := true }
  | 0x1E => some { plainType (.mbc5 mbc5Reset) true with rumble := true }
  | _ => none

/-- R441, the values of 0148: `rom_banks = 2 << n`. -/
def romBanksOf (n : Byte) : Option Nat := if n.toNat ≤ 8 then some (2 <<< n.toNat) else none

/-- R441, the values of 0149, in bytes. -/
def ramBytesOf (n : Byte) : Option Nat :=
  match n.toNat with
  | 0 => some 0
  | 1 => some 0x800
  | 2 => some 0x2000
  | 3 => some 0x8000
  | 4 => some 0x20000
  | 5 => some 0x10000
  | _ => none

/-- `ram_size`: 0x0149, but MBC2 has its own 512 cells and a type without RAM has none (R441). -/
def ramSizeFor (ct : CartType) (bytes : Nat) : Nat :=
  match ct.mapper with
  | .mbc2 _ => 512
  | _ => if ct.hasRam then bytes else 0

/-- R340 (a), R441: the cartridge of an image of `len` bytes with the saved external RAM, or why there is none. It rejects
what R441 lists and nothing else: that a NoMapper image of more than two banks, and an image or RAM beyond its scheme's
limit (R450, R455, R460), make a machine is the model's choice (log entry 25). -/
def loadCart (len : Nat) (rom eram : Memory) : Except LoadError Cart :=
  if len < 0x150 then .error .tooShort
  else
    match cartTypeOf (rom.read 0x147) with
    | none => .error (.unknownType (rom.read 0x147))
    | some ct =>
      match romBanksOf (rom.read 0x148) with
      | none => .error (.badRomSize (rom.read 0x148))
      | some banks =>
        match ramBytesOf (rom.read 0x149) with
        | none => .error (.badRamSize (rom.read 0x149))
        | some bytes =>
          if len ≠ banks * 0x4000 then .error .lengthMismatch
          else .ok
            { config := { romBanks := banks, ramSize := ramSizeFor ct bytes, hasClock := ct.hasClock, rumble := ct.rumble }
              rom := rom, eram := eram, mapper := ct.mapper }

/-! ### ROM reads, R442 -/

/-- The offset of `RomByte(b, off)` of R440: the bank number wraps into the image. -/
def romOffset (c : Cart) (bank off : Nat) : Nat := (bank % c.config.romBanks) * 0x4000 + off

/-- Which ROM offset the mapper shows at `addr` in 0000 to 7FFF: R445, R452, R456, R462, R473. -/
def cartRomIndex (c : Cart) (addr : Nat) : Nat :=
  match c.mapper with
  | .noMapper => addr
  | .mbc1 m =>
    if addr < 0x4000 then romOffset c (if m.mode then m.bank2.toNat <<< 5 else 0) addr
    else romOffset c ((m.bank2.toNat <<< 5) ||| m.bank1.toNat) (addr - 0x4000)
  | .mbc2 m => if addr < 0x4000 then romOffset c 0 addr else romOffset c m.romBank.toNat (addr - 0x4000)
  | .mbc3 m => if addr < 0x4000 then romOffset c 0 addr else romOffset c m.romBank.toNat (addr - 0x4000)
  | .mbc5 m => if addr < 0x4000 then romOffset c 0 addr else romOffset c m.romBank.toNat (addr - 0x4000)

/-- `CartRead(addr)`. -/
def cartRead (c : Cart) (addr : Nat) : Byte := c.rom.read (cartRomIndex c addr)

/-! ### Mapper writes, R443 -/

/-- `(v & 0x0F) = 0x0A`. -/
def ramEnableValue (v : Byte) : Bool := v &&& 0x0F == 0x0A

/-- A bank register that is never 0: writing 0 selects 1. -/
def nonZeroBank (n : Nat) (b : BitVec n) : BitVec n := if b = 0 then 1 else b

/-- R451. -/
def mbc1Write (m : Mbc1) (addr : Nat) (v : Byte) : Mbc1 :=
  if addr < 0x2000 then { m with ramEnable := ramEnableValue v }
  else if addr < 0x4000 then { m with bank1 := nonZeroBank 5 (v.setWidth 5) }
  else if addr < 0x6000 then { m with bank2 := v.setWidth 2 }
  else { m with mode := v.getLsbD 0 }

/-- R455. -/
def mbc2Write (m : Mbc2) (addr : Nat) (v : Byte) : Mbc2 :=
  if addr < 0x4000 then
    if addr.testBit 8 then { m with romBank := nonZeroBank 4 (v.setWidth 4) }
    else { m with ramEnable := ramEnableValue v }
  else m

/-- R461; `LatchClock()` of R466 on a 0 to 1 change. -/
def mbc3Write (m : Mbc3) (addr : Nat) (v : Byte) : Mbc3 :=
  if addr < 0x2000 then { m with ramEnable := ramEnableValue v }
  else if addr < 0x4000 then { m with romBank := nonZeroBank 7 (v.setWidth 7) }
  else if addr < 0x6000 then { m with ramSel := v.setWidth 4 }
  else { m with latched := if !m.latchPrev && v.getLsbD 0 then m.live else m.latched, latchPrev := v.getLsbD 0 }

/-- R472, R475: with a rumble motor bit 3 is no bank bit. -/
def mbc5Write (rumble : Bool) (m : Mbc5) (addr : Nat) (v : Byte) : Mbc5 :=
  if addr < 0x2000 then { m with ramEnable := ramEnableValue v }
  else if addr < 0x3000 then { m with romBank := m.romBank.extractLsb' 8 1 ++ v }
  else if addr < 0x4000 then { m with romBank := v.extractLsb' 0 1 ++ m.romBank.extractLsb' 0 8 }
  else if addr < 0x6000 then { m with ramBank := if rumble then (v &&& 0x07).setWidth 4 else v.setWidth 4 }
  else m

/-- `CartWrite(addr, v)`: changes bank-select state only. -/
def cartWrite (c : Cart) (addr : Nat) (v : Byte) : Cart :=
  { c with mapper :=
      match c.mapper with
      | .noMapper => .noMapper
      | .mbc1 m => .mbc1 (mbc1Write m addr v)
      | .mbc2 m => .mbc2 (mbc2Write m addr v)
      | .mbc3 m => .mbc3 (mbc3Write m addr v)
      | .mbc5 m => .mbc5 (mbc5Write c.config.rumble m addr v) }

/-! ### The window A000 to BFFF, R444; `off` is addr - A000 -/

/-- What an access to the window reaches. -/
inductive RamTarget where
  | closed                    -- no RAM, disabled, or a selection with nothing behind it
  | cell (index : Nat)        -- ERAM[index]
  | nibble (index : Nat)      -- an MBC2 cell of 4 bits, R457
  | clock (sel : BitVec 4)    -- an MBC3 clock register, R463
deriving DecidableEq, Repr

/-- R444: `ERAM[(bank * 0x2000 + off) mod ram_size]`, closed without RAM. -/
def bankedCell (c : Cart) (bank off : Nat) : RamTarget :=
  if c.config.ramSize = 0 then .closed else .cell ((bank * 0x2000 + off) % c.config.ramSize)

/-- R445, R453, R457, R463, R474. -/
def ramTarget (c : Cart) (off : Nat) : RamTarget :=
  match c.mapper with
  | .noMapper => bankedCell c 0 off
  | .mbc1 m => if m.ramEnable then bankedCell c (if m.mode then m.bank2.toNat else 0) off else .closed
  | .mbc2 m => if m.ramEnable then .nibble (off % 0x200) else .closed
  | .mbc3 m =>
    if m.ramEnable then
      if m.ramSel.toNat ≤ 0x3 then bankedCell c m.ramSel.toNat off
      else if 0x8 ≤ m.ramSel.toNat ∧ m.ramSel.toNat ≤ 0xC ∧ c.config.hasClock then .clock m.ramSel
      else .closed
    else .closed
  | .mbc5 m => if m.ramEnable then bankedCell c m.ramBank.toNat off else .closed

/-- DH of R465: bit 0 day8, bit 6 halt, bit 7 carry; unstored bits read 0. -/
def rtcDh (r : Rtc) : Byte :=
  (if r.carry then 0x80#8 else 0) ||| (if r.halt then 0x40#8 else 0) ||| (if r.day8 then 0x01#8 else 0)

/-- R465, R466: the register that `ram_sel` names. -/
def rtcRead (r : Rtc) (sel : BitVec 4) : Byte :=
  match sel.toNat with
  | 0x8 => r.s.setWidth 8
  | 0x9 => r.m.setWidth 8
  | 0xA => r.h.setWidth 8
  | 0xB => r.dl
  | _ => rtcDh r

/-- R467: into the live register; a write to S also clears rtc_sub. -/
def rtcWrite (m : Mbc3) (sel : BitVec 4) (v : Byte) : Mbc3 :=
  match sel.toNat with
  | 0x8 => { m with live := { m.live with s := v.setWidth 6 }, rtcSub := 0 }
  | 0x9 => { m with live := { m.live with m := v.setWidth 6 } }
  | 0xA => { m with live := { m.live with h := v.setWidth 5 } }
  | 0xB => { m with live := { m.live with dl := v } }
  | _ => { m with live := { m.live with day8 := v.getLsbD 0, halt := v.getLsbD 6, carry := v.getLsbD 7 } }

/-- The latched clock register, R466. -/
def mapperClockRead (mp : Mapper) (sel : BitVec 4) : Byte :=
  match mp with
  | .mbc3 m => rtcRead m.latched sel
  | _ => 0xFF

/-- R467. -/
def mapperClockWrite (mp : Mapper) (sel : BitVec 4) (v : Byte) : Mapper :=
  match mp with
  | .mbc3 m => .mbc3 (rtcWrite m sel v)
  | other => other

/-- `CartReadRam`. -/
def cartReadRam (c : Cart) (off : Nat) : Byte :=
  match ramTarget c off with
  | .closed => 0xFF
  | .cell i => c.eram.read i
  | .nibble i => 0xF0 ||| c.eram.read i
  | .clock sel => mapperClockRead c.mapper sel

/-- `CartWriteRam`. -/
def cartWriteRam (c : Cart) (off : Nat) (v : Byte) : Cart :=
  match ramTarget c off with
  | .closed => c
  | .cell i => { c with eram := c.eram.write i v }
  | .nibble i => { c with eram := c.eram.write i (v &&& 0x0F) }
  | .clock sel => { c with mapper := mapperClockWrite c.mapper sel v }

/-! ### The clock, R468 to R470 -/

/-- Cycles of one second (R468). -/
def cyclesPerSecond : Nat := 4194304

/-- The day counter's step of R468. -/
def rtcNextDay (r : Rtc) : Rtc :=
  let day : BitVec 9 := BitVec.ofBool r.day8 ++ r.dl
  if day = 511 then { r with dl := 0, day8 := false, carry := true }
  else { r with dl := (day + 1).extractLsb' 0 8, day8 := (day + 1).getLsbD 8 }

/-- The hour step: carry into the day at exactly 24. -/
def rtcNextHour (r : Rtc) : Rtc :=
  if r.h + 1 = 24 then rtcNextDay { r with h := 0 } else { r with h := r.h + 1 }

/-- The minute step: carry at exactly 60. -/
def rtcNextMinute (r : Rtc) : Rtc :=
  if r.m + 1 = 60 then rtcNextHour { r with m := 0 } else { r with m := r.m + 1 }

/-- One second: carry at exactly 60; other values count on to the wrap of their bits. -/
def rtcSecond (r : Rtc) : Rtc :=
  if r.s + 1 = 60 then rtcNextMinute { r with s := 0 } else { r with s := r.s + 1 }

/-- `n` seconds. -/
def rtcSeconds : Nat → Rtc → Rtc
  | 0, r => r
  | n + 1, r => rtcSeconds n (rtcSecond r)

/-- `ClockCycles(n)` of R468. -/
def clockCycles (n : Nat) (m : Mbc3) : Mbc3 :=
  { m with
    live := rtcSeconds ((m.rtcSub + n) / cyclesPerSecond) m.live
    rtcSub := (m.rtcSub + n) % cyclesPerSecond }

/-- `CartAdvance(n)` of R470. -/
def cartAdvance (n : Nat) (c : Cart) : Cart :=
  match c.mapper with
  | .mbc3 m => if c.config.hasClock && !m.live.halt then { c with mapper := .mbc3 (clockCycles n m) } else c
  | _ => c

end Sys2Proof.Machine
end

