-- ==== Sys2Proof/Machine/Flags.lean ====
section
/-! DEFINITION. The flag register (spec/10_state.md R24, R25) and every flag and result computation of 42_alu8.md to
44_rotate_shift_bit.md, in the integers as the rules give them. -/

namespace Sys2Proof.Machine

/-- `F <- (z<<7 | n<<6 | h<<5 | c<<4)`, R24. -/
def mkF (z n h c : Bool) : Byte :=
  (if z then 0x80#8 else 0) ||| (if n then 0x40#8 else 0) ||| (if h then 0x20#8 else 0) ||| (if c then 0x10#8 else 0)

def flagZ (f : Byte) : Bool := f.getLsbD 7
def flagN (f : Byte) : Bool := f.getLsbD 6
def flagH (f : Byte) : Bool := f.getLsbD 5
def flagC (f : Byte) : Bool := f.getLsbD 4

/-- R165: `F <- v & 0xF0`. -/
def maskF (v : Byte) : Byte := v &&& 0xF0

/-- A result byte and the new F. -/
structure Alu where
  val : Byte
  f : Byte
deriving DecidableEq, Repr

/-- `v[3:0]`. -/
def lowNibble (v : Byte) : Nat := v.toNat % 16

/-- R181, R182: `a + x + cin`. -/
def aluAdc (a x : Byte) (cin : Bool) : Alu :=
  let s := a.toNat + x.toNat + bit cin
  let r := BitVec.ofNat 8 s
  { val := r
    f := mkF (r == 0) false (decide (lowNibble a + lowNibble x + bit cin > 0xF)) (decide (s > 0xFF)) }

/-- R183, R184: `a - x - cin`. -/
def aluSbc (a x : Byte) (cin : Bool) : Alu :=
  let r := a - x - BitVec.ofNat 8 (bit cin)
  { val := r
    f := mkF (r == 0) true (decide (lowNibble a < lowNibble x + bit cin)) (decide (a.toNat < x.toNat + bit cin)) }

/-- R185. -/
def aluAnd (a x : Byte) : Alu :=
  let r := a &&& x
  { val := r, f := mkF (r == 0) false true false }

/-- R186. -/
def aluXor (a x : Byte) : Alu :=
  let r := a ^^^ x
  { val := r, f := mkF (r == 0) false false false }

/-- R187. -/
def aluOr (a x : Byte) : Alu :=
  let r := a ||| x
  { val := r, f := mkF (r == 0) false false false }

/-- R189, R190: C unchanged. -/
def aluInc (v f : Byte) : Alu :=
  let r := v + 1
  { val := r, f := mkF (r == 0) false (lowNibble v == 0xF) (flagC f) }

/-- R191, R192: C unchanged. -/
def aluDec (v f : Byte) : Alu :=
  let r := v - 1
  { val := r, f := mkF (r == 0) true (lowNibble v == 0x0) (flagC f) }

/-- R193: the adjustment and the carry, from the old A and the old flags. -/
def daaAdjust (a f : Byte) : Byte × Bool :=
  if flagN f then
    ((if flagH f then 0x06#8 else 0) ||| (if flagC f then 0x60#8 else 0), flagC f)
  else
    let low := flagH f || decide (lowNibble a > 0x9)
    let high := flagC f || decide (a.toNat > 0x99)
    ((if low then 0x06#8 else 0) ||| (if high then 0x60#8 else 0), high)

/-- R193. -/
def aluDaa (a f : Byte) : Alu :=
  let adj := daaAdjust a f
  let r := if flagN f then a - adj.1 else a + adj.1
  { val := r, f := mkF (r == 0) (flagN f) false adj.2 }

/-- R194: Z and C unchanged. -/
def aluCpl (a f : Byte) : Alu := { val := ~~~a, f := mkF (flagZ f) true true (flagC f) }

/-- R195. -/
def scfFlags (f : Byte) : Byte := mkF (flagZ f) false false true

/-- R196. -/
def ccfFlags (f : Byte) : Byte := mkF (flagZ f) false false (!flagC f)

/-- R220: HL + rr and F; Z unchanged. -/
def aluAddHl (hl x : Word) (f : Byte) : Word × Byte :=
  let s := hl.toNat + x.toNat
  (BitVec.ofNat 16 s,
    mkF (flagZ f) false (decide (hl.toNat % 0x1000 + x.toNat % 0x1000 > 0xFFF)) (decide (s > 0xFFFF)))

/-- R163, R223: SP + e and F; H and C from the low bytes taken unsigned. -/
def aluAddSp (sp : Word) (e : Byte) : Word × Byte :=
  (sp + sext16 e,
    mkF false false (decide (sp.toNat % 16 + e.toNat % 16 > 0xF)) (decide (sp.toNat % 256 + e.toNat > 0xFF)))

/-! ### 44_rotate_shift_bit.md: the shifted value and the bit shifted out -/

/-- R230, R235. -/
def rotLeft (v : Byte) : Byte × Bool := ((v <<< 1) ||| (v >>> 7), v.getLsbD 7)
/-- R231, R236. -/
def rotRight (v : Byte) : Byte × Bool := ((v >>> 1) ||| (v <<< 7), v.getLsbD 0)
/-- R232, R237. -/
def rotLeftCarry (v : Byte) (cin : Bool) : Byte × Bool := ((v <<< 1) ||| BitVec.ofNat 8 (bit cin), v.getLsbD 7)
/-- R233, R238. -/
def rotRightCarry (v : Byte) (cin : Bool) : Byte × Bool := ((v >>> 1) ||| (BitVec.ofNat 8 (bit cin) <<< 7), v.getLsbD 0)
/-- R239. -/
def shiftLeft (v : Byte) : Byte × Bool := ((v <<< 1) &&& 0xFE, v.getLsbD 7)
/-- R240. -/
def shiftRightArith (v : Byte) : Byte × Bool := ((v >>> 1) ||| (v &&& 0x80), v.getLsbD 0)
/-- R241; C = 0. -/
def swapNibbles (v : Byte) : Byte × Bool := ((v <<< 4) ||| (v >>> 4), false)
/-- R242. -/
def shiftRightLogic (v : Byte) : Byte × Bool := (v >>> 1, v.getLsbD 0)

/-- The accumulator rotates R230 to R233: Z = 0 always. -/
def accRotate (r : Byte × Bool) : Alu := { val := r.1, f := mkF false false false r.2 }

/-- R235 to R242: Z from the result. -/
def cbShift (r : Byte × Bool) : Alu := { val := r.1, f := mkF (r.1 == 0) false false r.2 }

/-- R243. -/
def bitFlags (b : BitVec 3) (v f : Byte) : Byte := mkF (!v.getLsbD b.toNat) false true (flagC f)

end Sys2Proof.Machine
end

