-- ==== Sys2Proof/Machine/Ppu.lean ====
section
/-! DEFINITION. The PPU (spec/63_ppu.md R380 to R425): registers, line and dot state machine, STAT line, rendering. -/

namespace Sys2Proof.Machine

/-! ### Registers, R381 to R386 -/

def lcdOn (p : Ppu) : Bool := p.lcdc.getLsbD 7
def objEnabled (p : Ppu) : Bool := p.lcdc.getLsbD 1
def bgEnabled (p : Ppu) : Bool := p.lcdc.getLsbD 0

/-- LCDC bit 2: 8 or 16. -/
def objHeight (p : Ppu) : Nat := if p.lcdc.getLsbD 2 then 16 else 8

/-- The number of a mode, R39. -/
def modeCode : PpuMode → Byte
  | .hblank => 0
  | .vblank => 1
  | .oamScan => 2
  | .transfer => 3

/-- A read of FF41, R382. -/
def statRead (p : Ppu) : Byte :=
  0x80 ||| (p.statEn.setWidth 8 <<< 3) ||| (if p.ly = p.lyc then 0x04#8 else 0) ||| modeCode p.mode

/-- R385: `shade(P, idx) = P[2*idx+1 : 2*idx]`. -/
def shadeOf (pal : Byte) (idx : BitVec 2) : Shade := pal.extractLsb' (2 * idx.toNat) 2

/-- The register a palette name stands for. -/
def palValue (p : Ppu) : PalReg → Byte
  | .bgp => p.bgp
  | .obp0 => p.obp0
  | .obp1 => p.obp1

/-! ### Objects, R404, R405 -/

/-- Byte k of OAM entry i. -/
def oamByte (oam : Memory) (i k : Nat) : Byte := oam.read (4 * i + k)

/-- `OnLine(i, ly)` of R405, in the integers. -/
def objOnLine (oam : Memory) (h ly i : Nat) : Bool :=
  let y := (oamByte oam i 0).toNat
  decide (y ≤ ly + 16) && decide (ly + 16 < y + h)

/-- The sort key of R405: X ascending, then index. -/
def objBefore (oam : Memory) (i j : Nat) : Bool :=
  let xi := (oamByte oam i 1).toNat
  let xj := (oamByte oam j 1).toNat
  decide (xi < xj) || (decide (xi = xj) && decide (i ≤ j))

def insertObj (oam : Memory) (i : Nat) : List Nat → List Nat
  | [] => [i]
  | j :: t => if objBefore oam i j then i :: j :: t else j :: insertObj oam i t

/-- `sort(l by (OAM[4i+1], i))`. -/
def sortObjs (oam : Memory) : List Nat → List Nat
  | [] => []
  | i :: t => insertObj oam i (sortObjs oam t)

/-- `SelectObjects(ly)` of R405. -/
def selectObjects (sel : SpriteSelect) (oam : Memory) (h ly : Nat) : List Nat :=
  let cand := (List.range 40).filter (objOnLine oam h ly)
  match sel with
  | .oamOrderThenX => sortObjs oam (cand.take 10)
  | .xThenOam => sortObjs oam ((sortObjs oam cand).take 10)

/-! ### Mode-3 length, R392 -/

/-- `WindowOnLine()` of R411. -/
def windowOnLine (p : Ppu) : Bool :=
  bgEnabled p && p.lcdc.getLsbD 5 && p.wyLatch && decide (p.wx.toNat ≤ 166)

/-- A table entry brought into 172..289, R392. -/
def clampMode3 (n : Nat) : Nat := max 172 (min 289 n)

/-- `MODE3_LEN`: into 172..289, and 172 at (0, 0, false). -/
def mode3Length (f : Mode3Fn) (sprites scxLow : Nat) (window : Bool) : Nat :=
  match f with
  | .formula => min 289 (172 + scxLow + 6 * bit window + 11 * sprites)
  | .table es =>
    if sprites = 0 ∧ scxLow = 0 ∧ window = false then 172
    else clampMode3 (es.getD (16 * sprites + 2 * scxLow + bit window) 172)

/-- `Mode3Len()`. -/
def computeMode3 (pr : Params) (oam : Memory) (p : Ppu) : Nat :=
  let sprites := if objEnabled p then (selectObjects pr.spriteSelect oam (objHeight p) p.line).length else 0
  mode3Length pr.mode3Fn sprites (p.scx.toNat % 8) (windowOnLine p)

/-! ### Tiles, R406 to R408; `base` is an offset into VRAM -/

/-- `TilePixel(base, r, c)`: column 0 is bit 7. -/
def tilePixel (vram : Memory) (base r c : Nat) : BitVec 2 :=
  let lo := vram.read (base + 2 * r)
  let hi := vram.read (base + 2 * r + 1)
  BitVec.ofBool (hi.getLsbD (7 - c)) ++ BitVec.ofBool (lo.getLsbD (7 - c))

/-- `TileBase(t) - 0x8000` of R408. -/
def tileBase (p : Ppu) (t : Byte) : Nat :=
  if p.lcdc.getLsbD 4 then 16 * t.toNat else (0x1000 + 16 * t.toInt).toNat

/-- The offset of a tile map, R407. -/
def mapBase (high : Bool) : Nat := if high then 0x1C00 else 0x1800

/-- The colour index at map pixel (px, py) of the map the flag selects, R407, R410, R411. -/
def mapPixel (vram : Memory) (p : Ppu) (high : Bool) (px py : Nat) : BitVec 2 :=
  let t := vram.read (mapBase high + (py / 8) * 32 + px / 8)
  tilePixel vram (tileBase p t) (py % 8) (px % 8)

/-- `BgIndex(x, ly)` of R410. -/
def bgIndex (vram : Memory) (p : Ppu) (x ly : Nat) : BitVec 2 :=
  mapPixel vram p (p.lcdc.getLsbD 3) ((x + p.scx.toNat) % 256) ((ly + p.scy.toNat) % 256)

/-- `WindowIndex(x)` of R411; used only when x + 7 >= WX. -/
def windowIndex (vram : Memory) (p : Ppu) (x : Nat) : BitVec 2 :=
  mapPixel vram p (p.lcdc.getLsbD 6) (x + 7 - p.wx.toNat) p.windowLine

/-- `BgOrWindowIndex(x, ly, win)` of R410. -/
def bgOrWindowIndex (vram : Memory) (p : Ppu) (x ly : Nat) (win : Bool) : BitVec 2 :=
  if !bgEnabled p then 0
  else if win && decide (p.wx.toNat ≤ x + 7) then windowIndex vram p x
  else bgIndex vram p x ly

/-! ### Object pixels, R412, R413 -/

/-- The tile of an object row: the pairing of 8 by 16 objects. -/
def objTile (h r : Nat) (t : Byte) : Byte :=
  if h = 16 then (t &&& 0xFE) ||| BitVec.ofNat 8 (r / 8) else t

/-- `ObjectIndexAt(i, x, ly)`, for an object with OnLine(i, ly). -/
def objectIndexAt (vram oam : Memory) (h i x ly : Nat) : Option (BitVec 2) :=
  let left := (oamByte oam i 1).toNat
  let attr := oamByte oam i 3
  if left ≤ x + 8 ∧ x + 8 - left ≤ 7 then
    let c := x + 8 - left
    let r := ly + 16 - (oamByte oam i 0).toNat
    let r := if attr.getLsbD 6 then h - 1 - r else r
    let c := if attr.getLsbD 5 then 7 - c else c
    some (tilePixel vram (16 * (objTile h r (oamByte oam i 2)).toNat) (r % 8) c)
  else none

/-- The object pixel that wins at a column. -/
structure ObjPixel where
  index   : BitVec 2
  behind  : Bool
  palette : PalReg
deriving DecidableEq, Repr

/-- `FirstOpaqueObject(objs, x, ly)` of R412. -/
def firstOpaque (vram oam : Memory) (h x ly : Nat) : List Nat → Option ObjPixel
  | [] => none
  | i :: t =>
    match objectIndexAt vram oam h i x ly with
    | none => firstOpaque vram oam h x ly t
    | some v =>
      if v = 0 then firstOpaque vram oam h x ly t
      else some
        { index := v
          behind := (oamByte oam i 3).getLsbD 7
          palette := if (oamByte oam i 3).getLsbD 4 then .obp1 else .obp0 }

/-! ### A line, R409 -/

/-- One entry of the line buffer, R409 with R413's priority. -/
def linePixel (vram oam : Memory) (p : Ppu) (objs : List Nat) (win : Bool) (ly x : Nat) : Pixel :=
  let bg := bgOrWindowIndex vram p x ly win
  let bgPixel : Pixel := { index := bg, sprite := false, priority := false, palette := .bgp }
  match firstOpaque vram oam (objHeight p) x ly objs with
  | none => bgPixel
  | some o =>
    if o.behind && bg != 0 then bgPixel
    else { index := o.index, sprite := true, priority := o.behind, palette := o.palette }

/-- The shade of a line-buffer entry. -/
def pixelShade (p : Ppu) (px : Pixel) : Shade := shadeOf (palValue p px.palette) px.index

/-- `RenderLine()` of R409. -/
def renderLine (pr : Params) (vram oam : Memory) (p : Ppu) : Ppu :=
  let objs := if objEnabled p then selectObjects pr.spriteSelect oam (objHeight p) p.line else []
  let win := windowOnLine p
  let buf : Vector Pixel 160 := Vector.ofFn fun x => linePixel vram oam p objs win p.line x.val
  { p with
    lineBuffer := buf
    frame := p.frame.setIfInBounds p.line (buf.map (pixelShade p))
    windowLine := if win then p.windowLine + 1 else p.windowLine }

/-! ### The state machine, R388 to R402 -/

/-- `SetLY(v)` of R389. -/
def setLy (v : Byte) (p : Ppu) : Ppu := { p with ly := v, lycPulse := v == p.lyc }

/-- `StartVisibleLine()` of R395. -/
def startVisibleLine (p : Ppu) : Ppu := { p with mode := .oamScan, wyLatch := p.wyLatch || p.wy == p.ly }

/-- `EndOfLine()` of R395; the flag is `RequestInterrupt(0)`. -/
def endOfLine (p : Ppu) : Ppu × Bool :=
  if p.line = 153 then
    (startVisibleLine { p with lineDot := 0, line := 0, windowLine := 0, wyLatch := false }, false)
  else
    let q := setLy (BitVec.ofNat 8 (p.line + 1)) { p with lineDot := 0, line := p.line + 1 }
    if q.line = 144 then ({ q with mode := .vblank, frameComplete := true }, true)
    else if q.line ≤ 143 then (startVisibleLine q, false)
    else (q, false)

/-- The transitions of one dot, R389, `line_dot` already counted on. -/
def dotTransition (pr : Params) (vram oam : Memory) (p : Ppu) : Ppu × Bool :=
  if p.line ≤ 143 then
    if p.lineDot = 80 then ({ p with mode3Len := computeMode3 pr oam p, mode := .transfer }, false)
    else if p.lineDot = 80 + p.mode3Len then ({ renderLine pr vram oam p with mode := .hblank }, false)
    else if p.lineDot = 456 then endOfLine p
    else (p, false)
  else
    let q := if p.line = 153 ∧ p.lineDot = 4 then setLy 0 p else p
    if q.lineDot = 456 then endOfLine q else (q, false)

/-- `StatLevel()` of R400. -/
def statLevel (p : Ppu) : Bool :=
  (p.statEn.getLsbD 0 && p.mode == .hblank) || (p.statEn.getLsbD 1 && p.mode == .vblank) ||
  (p.statEn.getLsbD 2 && p.mode == .oamScan) || (p.statEn.getLsbD 3 && p.lycPulse)

/-- The interrupt requests a dot makes: bit 0 VBlank, bit 1 LCD-STAT. -/
def dotRequests (vblank stat : Bool) : BitVec 5 := (if vblank then 1#5 else 0) ||| (if stat then 2#5 else 0)

/-- `PpuDot()` of R389, with `UpdateStatLine()` of R400; second component: the requests. -/
def ppuDot (pr : Params) (vram oam : Memory) (p : Ppu) : Ppu × BitVec 5 :=
  match dotTransition pr vram oam { p with lineDot := p.lineDot + 1 } with
  | (q, vblank) =>
    ({ q with statLine := statLevel q, lycPulse := false }, dotRequests vblank (!q.statLine && statLevel q))

/-- `n` dots; the requests accumulate. -/
def ppuRun (pr : Params) (vram oam : Memory) : Nat → Ppu × BitVec 5 → Ppu × BitVec 5
  | 0, x => x
  | n + 1, (p, r) =>
    match ppuDot pr vram oam p with
    | (p', r') => ppuRun pr vram oam n (p', r ||| r')

/-! ### Writes of LCDC, R398, R399 -/

/-- LCD off. -/
def lcdTurnOff (p : Ppu) : Ppu :=
  { p with
    ly := 0, line := 0, lineDot := 0, mode := .hblank, windowLine := 0, wyLatch := false
    statLine := false, lycPulse := false
    frame := blankFrame, lineBuffer := blankLineBuffer, frameComplete := true }

/-- LCD on. -/
def lcdTurnOn (p : Ppu) : Ppu :=
  { startVisibleLine { p with ly := 0, line := 0, lineDot := 0, windowLine := 0, wyLatch := false } with
    lycPulse := p.lyc == 0, statLine := false }

/-- A write of FF40. -/
def lcdcWrite (v : Byte) (p : Ppu) : Ppu :=
  let q := { p with lcdc := v }
  if lcdOn p && !v.getLsbD 7 then lcdTurnOff q
  else if !lcdOn p && v.getLsbD 7 then lcdTurnOn q
  else q

end Sys2Proof.Machine
end

