-- ==== Sys2Proof/Machine/Serial.lean ====
section
/-! DEFINITION. The serial port and the joypad register (spec/65_serial_joypad.md R490 to R506).
Functions that can request an interrupt say so in their second component. -/

namespace Sys2Proof.Machine

/-! ### Serial -/

/-- `ExchangeByte(sent)` of R494 and the device after it; 0xFF with nothing attached or no answer left. -/
def exchangeByte (sent : Byte) : SerialDevice → Byte × SerialDevice
  | .none => (0xFF, .none)
  | .table answers => (answers.getD sent.toNat 0xFF, .table answers)
  | .script [] => (0xFF, .script [])
  | .script (x :: rest) => (x, .script rest)

/-- The device of R496: `exchangeByte(x) = x`. -/
def echoDevice : SerialDevice := .table ((List.range 256).map (BitVec.ofNat 8))

/-- `SerialComplete()` of R493. -/
def serialComplete (p : Serial) : Serial :=
  let x := exchangeByte p.sb p.device
  { p with sb := x.1, device := x.2, sc7 := false, busy := false }

/-- `SerialAdvance(n)` of R493. -/
def serialAdvance (n : Nat) (p : Serial) : Serial × Bool :=
  if p.busy && p.internal then
    let q := { p with remaining := p.remaining - n }
    if q.remaining = 0 then (serialComplete q, true) else (q, false)
  else (p, false)

/-- `SerialExternalPulse()` of R495. -/
def serialPulse (p : Serial) : Serial × Bool :=
  if p.busy && !p.internal then
    if p.bits + 1 = 8 then (serialComplete { p with bits := 0 }, true)
    else ({ p with bits := p.bits + 1 }, false)
  else (p, false)

/-- A write of FF02, R492. -/
def scWrite (p : Serial) (v : Byte) : Serial :=
  let q := { p with sc7 := v.getLsbD 7, sc0 := v.getLsbD 0 }
  if v.getLsbD 7 then
    if v.getLsbD 0 then { q with busy := true, internal := true, remaining := 4096 }
    else { q with busy := true, internal := false, bits := 0 }
  else { q with busy := false }

/-- A read of FF02, R491. -/
def scRead (p : Serial) : Byte := 0x7E ||| (if p.sc7 then 0x80#8 else 0) ||| (if p.sc0 then 0x01#8 else 0)

/-! ### Joypad -/

/-- Four active-low lines from four pressed buttons, bit 3 first. -/
def lowLines (b3 b2 b1 b0 : Bool) : BitVec 4 :=
  (if b3 then 0 else 8#4) ||| (if b2 then 0 else 4#4) ||| (if b1 then 0 else 2#4) ||| (if b0 then 0 else 1#4)

/-- `JoyLines()` of R502. -/
def joyLines (j : Joypad) : BitVec 4 :=
  (if j.select.getLsbD 0 then 0xF#4 else lowLines j.down j.up j.left j.right) &&&
  (if j.select.getLsbD 1 then 0xF#4 else lowLines j.btnStart j.btnSelect j.btnB j.btnA)

/-- `JoyEdge(old)` of R501: some line went from 1 to 0. -/
def joyEdge (old new : BitVec 4) : Bool := old &&& ~~~new != 0

/-- A read of FF00, R500. -/
def p1Read (j : Joypad) : Byte := 0xC0 ||| (j.select.setWidth 8 <<< 4) ||| (joyLines j).setWidth 8

/-- A write of FF00, R500. -/
def p1Write (j : Joypad) (v : Byte) : Joypad × Bool :=
  let j' := { j with select := v.extractLsb' 4 2 }
  (j', joyEdge (joyLines j) (joyLines j'))

/-- One button's state. -/
def pressButton (j : Joypad) (b : Button) (pressed : Bool) : Joypad :=
  match b with
  | .right => { j with right := pressed }
  | .left => { j with left := pressed }
  | .up => { j with up := pressed }
  | .down => { j with down := pressed }
  | .a => { j with btnA := pressed }
  | .b => { j with btnB := pressed }
  | .select => { j with btnSelect := pressed }
  | .start => { j with btnStart := pressed }

/-- `HostSetButton(b, pressed)` of R501. -/
def setButton (j : Joypad) (b : Button) (pressed : Bool) : Joypad × Bool :=
  let j' := pressButton j b pressed
  (j', joyEdge (joyLines j) (joyLines j'))

end Sys2Proof.Machine
end

