-- ==== Sys2Proof/Machine/Timer.lean ====
section
/-! DEFINITION. The timer block (spec/61_timer.md R350 to R362). Each function also says whether it requests interrupt 2. -/

namespace Sys2Proof.Machine

/-- R353: the bit of div_counter that TAC[1:0] selects. -/
def selectedBit (tac : BitVec 3) : Nat :=
  match (tac.extractLsb' 0 2).toNat with
  | 0 => 9
  | 1 => 3
  | 2 => 5
  | _ => 7

/-- The timer-enable bit, TAC[2]. -/
def timerEnabled (tac : BitVec 3) : Bool := tac.getLsbD 2

/-- `TimaTick()` of R357. -/
def timaTick (t : Timer) : Timer × Bool :=
  if t.tima = 0xFF then ({ t with tima := t.tma }, true) else ({ t with tima := t.tima + 1 }, false)

/-- `TimerCycle()` of R355. -/
def timerCycle (t : Timer) : Timer × Bool :=
  let t' := { t with div := t.div + 1 }
  if timerEnabled t.tac && t.div.getLsbD (selectedBit t.tac) && !t'.div.getLsbD (selectedBit t.tac) then timaTick t'
  else (t', false)

/-- `TimerAdvance(n)` of R355; the flag says whether a request was made in the span. -/
def timerRun : Nat → Timer × Bool → Timer × Bool
  | 0, x => x
  | n + 1, (t, r) =>
    match timerCycle t with
    | (t', r') => timerRun n (t', r || r')

/-- A write of FF04, R354: the DIV-reset glitch. -/
def divWrite (t : Timer) : Timer × Bool :=
  let t' := { t with div := 0 }
  if timerEnabled t.tac && t.div.getLsbD (selectedBit t.tac) then timaTick t' else (t', false)

end Sys2Proof.Machine
end

