-- ==== Sys2Proof/Machine/Ops.lean ====
section
/-! DEFINITION. The operations over memory and registers: address decoder, blocking, I/O registers, OAM DMA
(spec/20_memory.md, 62_dma.md), stack (00_scope.md R10), taking an interrupt and returning from one, and the
InvalidOpcode exception (60_exceptions.md). -/

namespace Sys2Proof.Machine

/-! ### Interrupt requests -/

/-- `RequestInterrupt(i)` of R316, for a set of interrupts. -/
def State.request (bits : BitVec 5) (s : State) : State := { s with ifReg := s.ifReg ||| bits }

/-- The request bits of the table of R313. -/
def irqTimer : BitVec 5 := 4
def irqSerial : BitVec 5 := 8
def irqJoypad : BitVec 5 := 16

/-- `bits` when the flag is set, no request otherwise. -/
def requestIf (b : Bool) (bits : BitVec 5) : BitVec 5 := if b then bits else 0

/-- `IF & IE & 0x1F`, the controller's own view (R317, R318). -/
def State.pending (s : State) : BitVec 5 := s.ifReg &&& s.ie.setWidth 5

/-! ### The address decoder, R61, R64, R71 -/

/-- The I/O registers of 10_state.md R35. -/
inductive IoReg where
  | p1 | sb | sc | div | tima | tma | tac | ifl
  | apu        -- FF10 to FF3F, R72
  | lcdc | stat | scy | scx | ly | lyc | dma | bgp | obp0 | obp1 | wy | wx
  | noReg      -- FF03, FF08 to FF0E, FF4C to FF7F
deriving DecidableEq, Repr

/-- The register at FF00 + k, k in 00 to 7F. -/
def ioRegAt (k : Nat) : IoReg :=
  if k = 0x00 then .p1
  else if k = 0x01 then .sb
  else if k = 0x02 then .sc
  else if k = 0x04 then .div
  else if k = 0x05 then .tima
  else if k = 0x06 then .tma
  else if k = 0x07 then .tac
  else if k = 0x0F then .ifl
  else if 0x10 ≤ k ∧ k ≤ 0x3F then .apu
  else if k = 0x40 then .lcdc
  else if k = 0x41 then .stat
  else if k = 0x42 then .scy
  else if k = 0x43 then .scx
  else if k = 0x44 then .ly
  else if k = 0x45 then .lyc
  else if k = 0x46 then .dma
  else if k = 0x47 then .bgp
  else if k = 0x48 then .obp0
  else if k = 0x49 then .obp1
  else if k = 0x4A then .wy
  else if k = 0x4B then .wx
  else .noReg

/-- The one owner of an address (R61), with the offset inside it. -/
inductive Owner where
  | rom (addr : Nat)
  | vram (off : Nat)
  | eram (off : Nat)
  | wram (off : Nat)
  | oam (off : Nat)
  | nobody
  | io (r : IoReg)
  | hram (off : Nat)
  | ie
deriving DecidableEq, Repr

/-- R61, R64, R68 (the mirror E000 to FDFF is the same byte of WRAM). -/
def ownerOf (a : Word) : Owner :=
  let n := a.toNat
  if n < 0x8000 then .rom n
  else if n < 0xA000 then .vram (n - 0x8000)
  else if n < 0xC000 then .eram (n - 0xA000)
  else if n < 0xE000 then .wram (n - 0xC000)
  else if n < 0xFE00 then .wram (n - 0xE000)
  else if n < 0xFEA0 then .oam (n - 0xFE00)
  else if n < 0xFF00 then .nobody
  else if n < 0xFF80 then .io (ioRegAt (n - 0xFF00))
  else if n < 0xFFFF then .hram (n - 0xFF80)
  else .ie

/-! ### Reads without blocking -/

/-- `IoRead(addr)` of R71. An APU read is the free value of R72. -/
def ioRead (k : Access) (s : State) (a : Word) (r : IoReg) : Byte :=
  match r with
  | .p1 => p1Read s.joypad
  | .sb => s.serial.sb
  | .sc => scRead s.serial
  | .div => hiByte s.timer.div
  | .tima => s.timer.tima
  | .tma => s.timer.tma
  | .tac => 0xF8 ||| s.timer.tac.setWidth 8
  | .ifl => 0xE0 ||| s.ifReg.setWidth 8
  | .apu => Config.apuRead s.apuSeq k a
  | .lcdc => s.ppu.lcdc
  | .stat => statRead s.ppu
  | .scy => s.ppu.scy
  | .scx => s.ppu.scx
  | .ly => s.ppu.ly
  | .lyc => s.ppu.lyc
  | .dma => s.dma.page
  | .bgp => s.ppu.bgp
  | .obp0 => s.ppu.obp0
  | .obp1 => s.ppu.obp1
  | .wy => s.ppu.wy
  | .wx => s.ppu.wx
  | .noReg => 0xFF

/-- `RawRead(addr)` of R64. -/
def State.rawRead (k : Access) (s : State) (a : Word) : Byte :=
  match ownerOf a with
  | .rom n => cartRead s.cart n
  | .vram off => s.vram.read off
  | .eram off => cartReadRam s.cart off
  | .wram off => s.wram.read off
  | .oam off => s.oam.read off
  | .nobody => 0xFF
  | .io r => ioRead k s a r
  | .hram off => s.hram.read off
  | .ie => s.ie

/-! ### OAM DMA, 62_dma.md R371, R372 -/

/-- The source address `(page << 8) + k`. -/
def dmaSource (page : Byte) (k : Nat) : Word := joinBytes page (BitVec.ofNat 8 k)

/-- The first `n` bytes of `DmaCopy(page)` into `oam`, read through `RawRead`. -/
def dmaCopy (s : State) (page : Byte) : Nat → Memory → Memory
  | 0, oam => oam
  | n + 1, oam => (dmaCopy s page n oam).write n (s.rawRead .dma (dmaSource page n))

/-- OAM after `DmaCopy(page)`, all 160 bytes. Kept folded, so that no proof unrolls 160 copies by accident. -/
@[irreducible] def oamCopy (s : State) (page : Byte) : Memory := dmaCopy s page 160 s.oam

/-- A write of FF46: the whole copy is made at the trigger, then the countdown starts. -/
def State.startDma (v : Byte) (s : State) : State :=
  let t := { s with dma := { s.dma with page := v } }
  { t with
    oam := oamCopy t v
    dma := { page := v, remaining := s.params.dmaCycles, blocked := true } }

/-- `DmaAdvance(n)` of R373. -/
def dmaAdvance (n : Nat) (d : Dma) : Dma :=
  if d.remaining = 0 then d
  else { d with remaining := d.remaining - n, blocked := if d.remaining - n = 0 then false else d.blocked }

/-! ### Writes without blocking -/

/-- A change of the PPU's registers by the program. -/
def State.withPpu (p : Ppu) (s : State) : State := { s with ppu := p }

/-- `IoWrite(addr, v)` of R71. -/
def ioWrite (s : State) (r : IoReg) (v : Byte) : State :=
  match r with
  | .p1 => { s with joypad := (p1Write s.joypad v).1, ifReg := s.ifReg ||| requestIf (p1Write s.joypad v).2 irqJoypad }
  | .sb => { s with serial := { s.serial with sb := v } }
  | .sc => { s with serial := scWrite s.serial v }
  | .div => { s with timer := (divWrite s.timer).1, ifReg := s.ifReg ||| requestIf (divWrite s.timer).2 irqTimer }
  | .tima => { s with timer := { s.timer with tima := v } }
  | .tma => { s with timer := { s.timer with tma := v } }
  | .tac => { s with timer := { s.timer with tac := v.setWidth 3 } }
  | .ifl => { s with ifReg := v.setWidth 5 }
  | .apu => s
  | .lcdc => s.withPpu (lcdcWrite v s.ppu)
  | .stat => s.withPpu { s.ppu with statEn := v.extractLsb' 3 4 }
  | .scy => s.withPpu { s.ppu with scy := v }
  | .scx => s.withPpu { s.ppu with scx := v }
  | .ly => s
  | .lyc => s.withPpu { s.ppu with lyc := v }
  | .dma => s.startDma v
  | .bgp => s.withPpu { s.ppu with bgp := v }
  | .obp0 => s.withPpu { s.ppu with obp0 := v }
  | .obp1 => s.withPpu { s.ppu with obp1 := v }
  | .wy => s.withPpu { s.ppu with wy := v }
  | .wx => s.withPpu { s.ppu with wx := v }
  | .noReg => s

/-- `RawWrite(addr, v)` of R64. -/
def State.rawWrite (s : State) (a : Word) (v : Byte) : State :=
  match ownerOf a with
  | .rom n => { s with cart := cartWrite s.cart n v }
  | .vram off => { s with vram := s.vram.write off v }
  | .eram off => { s with cart := cartWriteRam s.cart off v }
  | .wram off => { s with wram := s.wram.write off v }
  | .oam off => { s with oam := s.oam.write off v }
  | .nobody => s
  | .io r => ioWrite s r v
  | .hram off => { s with hram := s.hram.write off v }
  | .ie => { s with ie := v }

/-! ### The CPU-side access functions, R62, R63, R75, R76 -/

/-- `PpuBlocksOam()` of R76. -/
def ppuBlocksOam (s : State) : Bool := lcdOn s.ppu && (s.ppu.mode == .oamScan || s.ppu.mode == .transfer)

/-- `PpuBlocksVram()` of R76. -/
def ppuBlocksVram (s : State) : Bool :=
  lcdOn s.ppu && (s.ppu.mode == .transfer || (s.ppu.mode == .oamScan && s.params.vramBlockedMode2))

/-- Whether the CPU is kept from an address: R75 for everything but HRAM, R76 for VRAM and OAM. -/
def State.isBlocked (s : State) (a : Word) : Bool :=
  match ownerOf a with
  | .hram _ => false
  | .vram _ => s.dma.blocked || ppuBlocksVram s
  | .oam _ => s.dma.blocked || ppuBlocksOam s
  | _ => s.dma.blocked

/-- `MemRead(addr, 1)`: a blocked read gives the open-bus value. -/
def State.memRead (k : Access) (s : State) (a : Word) : Byte :=
  if s.isBlocked a then 0xFF else s.rawRead k a

/-- `MemWrite(addr, 1, v)`: a blocked write is dropped. -/
def State.memWrite (s : State) (a : Word) (v : Byte) : State :=
  if s.isBlocked a then s else s.rawWrite a v

/-! ### Registers -/

/-- `r8[i]` of 00_scope.md R9. -/
def State.reg (s : State) : Reg8 → Byte
  | .b => s.cpu.b
  | .c => s.cpu.c
  | .d => s.cpu.d
  | .e => s.cpu.e
  | .h => s.cpu.h
  | .l => s.cpu.l
  | .a => s.cpu.a

/-- `r8[i] <- v`. -/
def State.setReg (s : State) (r : Reg8) (v : Byte) : State :=
  match r with
  | .b => { s with cpu := { s.cpu with b := v } }
  | .c => { s with cpu := { s.cpu with c := v } }
  | .d => { s with cpu := { s.cpu with d := v } }
  | .e => { s with cpu := { s.cpu with e := v } }
  | .h => { s with cpu := { s.cpu with h := v } }
  | .l => { s with cpu := { s.cpu with l := v } }
  | .a => { s with cpu := { s.cpu with a := v } }

/-- The pairs of 10_state.md R22, high byte first. -/
def State.bc (s : State) : Word := joinBytes s.cpu.b s.cpu.c
def State.de (s : State) : Word := joinBytes s.cpu.d s.cpu.e
def State.hl (s : State) : Word := joinBytes s.cpu.h s.cpu.l
def State.af (s : State) : Word := joinBytes s.cpu.a s.cpu.f

/-- Writing a pair writes both halves (R22). -/
def State.setBc (s : State) (v : Word) : State := { s with cpu := { s.cpu with b := hiByte v, c := loByte v } }
def State.setDe (s : State) (v : Word) : State := { s with cpu := { s.cpu with d := hiByte v, e := loByte v } }
def State.setHl (s : State) (v : Word) : State := { s with cpu := { s.cpu with h := hiByte v, l := loByte v } }

/-- `AF <- v` with the low nibble of F kept 0 (R165). -/
def State.setAf (s : State) (v : Word) : State := { s with cpu := { s.cpu with a := hiByte v, f := maskF (loByte v) } }

def State.setSp (s : State) (v : Word) : State := { s with cpu := { s.cpu with sp := v } }
def State.setPc (s : State) (v : Word) : State := { s with cpu := { s.cpu with pc := v } }
def State.setF (s : State) (v : Byte) : State := { s with cpu := { s.cpu with f := v } }

/-- A and F from an ALU result. -/
def State.setAFlags (s : State) (r : Alu) : State := { s with cpu := { s.cpu with a := r.val, f := r.f } }

/-- `return n` of R11: the cycle count the step hands to the other blocks. -/
def State.took (s : State) (n : Nat) : State := { s with cycles := n }

/-! ### The stack, 00_scope.md R10 -/

/-- `Push16(v)`: high byte to SP-1, then low byte to SP-2. -/
def State.push16 (s : State) (v : Word) : State :=
  let s1 := (s.setSp (s.cpu.sp - 1)).memWrite (s.cpu.sp - 1) (hiByte v)
  (s1.setSp (s1.cpu.sp - 1)).memWrite (s1.cpu.sp - 1) (loByte v)

/-- The value `Pop16()` returns. -/
def State.popValue (s : State) : Word :=
  joinBytes (s.memRead .dataHi (s.cpu.sp + 1)) (s.memRead .dataLo s.cpu.sp)

/-- The state after `Pop16()`: SP + 2. -/
def State.popped (s : State) : State := s.setSp (s.cpu.sp + 2)

/-! ### Interrupts and the one exception, 60_exceptions.md -/

/-- "the least i in 0..4 with pending[i] = 1" (R315, R320). -/
def lowestPending (p : BitVec 5) : Nat :=
  if p.getLsbD 0 then 0
  else if p.getLsbD 1 then 1
  else if p.getLsbD 2 then 2
  else if p.getLsbD 3 then 3
  else 4

/-- R319: `vector(i) = 0x0040 + 8 * i`. -/
def interruptVector (i : Nat) : Word := 0x0040 + BitVec.ofNat 16 (8 * i)

/-- Taking an interrupt: `Dispatch(pending)` of R320. Saves PC on the stack and nothing else (R321). -/
def State.takeInterrupt (s : State) (pending : BitVec 5) : State :=
  let i := lowestPending pending
  let s1 := { s with
    cpu := { s.cpu with ime := false, imePending := false }
    ifReg := s.ifReg &&& ~~~(1#5 <<< i) }
  ((s1.push16 s1.cpu.pc).setPc (interruptVector i)).took s.params.intDispatchCycles

/-- Returning from a handler, R270, R330: PC from the stack, IME at once. -/
def State.returnFromInterrupt (s : State) : State :=
  let t := s.popped.setPc s.popValue
  { t with cpu := { t.cpu with ime := true, imePending := false } }

/-- `raise InvalidOpcode(op)` of R11, R312: `fault <- InvalidOpcode(op)`. -/
def State.raiseInvalidOpcode (s : State) (op : Byte) : State := { s with cpu := { s.cpu with fault := some op } }

/-- What a state answers (R310, R312): its standing fault, or itself. -/
def State.outcome (s : State) : Result :=
  match s.cpu.fault with
  | some op => .fault (.invalidOpcode op)
  | none => .next s

end Sys2Proof.Machine
end

