-- ==== Sys2Proof/Machine/Advance.lean ====
section
/-! DEFINITION. The five advances of a step, spec/60_exceptions.md R310. -/

namespace Sys2Proof.Machine

/-- `PpuAdvance(n)` of R388: nothing with the LCD off. -/
def State.ppuAdvance (n : Nat) (s : State) : State :=
  if lcdOn s.ppu then
    let r := ppuRun s.params s.vram s.oam n (s.ppu, 0)
    { s with ppu := r.1, ifReg := s.ifReg ||| r.2 }
  else s

/-- `TimerAdvance(n)` of R355. -/
def State.timerAdvance (n : Nat) (s : State) : State :=
  let r := timerRun n (s.timer, false)
  { s with timer := r.1, ifReg := s.ifReg ||| requestIf r.2 irqTimer }

/-- `DmaAdvance(n)` of R373. -/
def State.dmaAdvance (n : Nat) (s : State) : State := { s with dma := Machine.dmaAdvance n s.dma }

/-- `SerialAdvance(n)` of R493. -/
def State.serialAdvance (n : Nat) (s : State) : State :=
  let r := Machine.serialAdvance n s.serial
  { s with serial := r.1, ifReg := s.ifReg ||| requestIf r.2 irqSerial }

/-- `CartAdvance(n)` of R470. -/
def State.cartAdvance (n : Nat) (s : State) : State := { s with cart := Machine.cartAdvance n s.cart }

/-- PPU, timer, DMA, serial, cartridge; then the free-value counter moves on (log entry 8). -/
def State.advance (n : Nat) (s : State) : State :=
  let t := ((((s.ppuAdvance n).timerAdvance n).dmaAdvance n).serialAdvance n).cartAdvance n
  { t with apuSeq := t.apuSeq + 1 }

end Sys2Proof.Machine
end

