-- ==== Sys2Proof/Machine/Operands.lean ====
section
/-! DEFINITION. Operand forms: register, `(HL)`, pairs, pointers, the high page, conditions (spec/30_encoding.md R106 to R109). -/

namespace Sys2Proof.Machine

/-- The byte in memory at HL, R106 code 110. -/
def State.readM (s : State) : Byte := s.memRead .dataLo s.hl

/-- `MemWrite(HL, 1, v)`. -/
def State.writeM (s : State) (v : Byte) : State := s.memWrite s.hl v

/-- `A <- MemRead(a, 1)`. -/
def State.loadA (s : State) (a : Word) : State := s.setReg .a (s.memRead .dataLo a)

/-- `MemWrite(a, 1, A)`. -/
def State.storeA (s : State) (a : Word) : State := s.memWrite a s.cpu.a

/-- The low byte to `a`, then the high byte to `a + 1` (R161). -/
def State.storeWord (s : State) (a v : Word) : State := (s.memWrite a (loByte v)).memWrite (a + 1) (hiByte v)

/-- An extended-set result written back to a register, and F (R234). -/
def State.setRegAlu (s : State) (r : Reg8) (o : Alu) : State := (s.setReg r o.val).setF o.f

/-- An extended-set result written back to memory at HL, and F (R234). -/
def State.writeMAlu (s : State) (o : Alu) : State := (s.writeM o.val).setF o.f

/-- `rr[p]`, R107. -/
def State.pair (s : State) : Pair → Word
  | .bc => s.bc
  | .de => s.de
  | .hl => s.hl
  | .sp => s.cpu.sp

/-- `rr[p] <- v`. -/
def State.setPair (s : State) (p : Pair) (v : Word) : State :=
  match p with
  | .bc => s.setBc v
  | .de => s.setDe v
  | .hl => s.setHl v
  | .sp => s.setSp v

/-- `qq[p]`, R107. -/
def State.stackPair (s : State) : StackPair → Word
  | .bc => s.bc
  | .de => s.de
  | .hl => s.hl
  | .af => s.af

/-- `qq[p] <- v`, with R165's mask for AF. -/
def State.setStackPair (s : State) (q : StackPair) (v : Word) : State :=
  match q with
  | .bc => s.setBc v
  | .de => s.setDe v
  | .hl => s.setHl v
  | .af => s.setAf v

/-- `0xFF00 + zext_16(n)`, R109: never leaves FF00 to FFFF. -/
def highPage (n : Byte) : Word := 0xFF00 + zext16 n

/-- R108, R260. -/
def State.cond (s : State) : Cond → Bool
  | .nz => !flagZ s.cpu.f
  | .z => flagZ s.cpu.f
  | .nc => !flagC s.cpu.f
  | .c => flagC s.cpu.f

/-- `zext_16(t << 3)`, R109, R271. -/
def rstTarget (t : BitVec 3) : Word := t.setWidth 16 <<< 3

/-- `PC + sext_16(e)`, R264. -/
def State.relTarget (s : State) (e : Byte) : Word := s.cpu.pc + sext16 e

/-- A call: `Push16(PC); PC <- target` (R266, R271). -/
def State.call (s : State) (target : Word) : State := (s.push16 s.cpu.pc).setPc target

/-- A return: `PC <- Pop16()` (R268). -/
def State.doRet (s : State) : State := s.popped.setPc s.popValue

end Sys2Proof.Machine
end

