-- ==== Sys2Proof/Machine/Alu16.lean ====
section
/-! DEFINITION. 16-bit arithmetic, spec/43_alu16.md. -/

namespace Sys2Proof.Machine

/-- R220. -/
def execAddHlRr (p : Pair) (s : State) : Result :=
  let r := aluAddHl s.hl (s.pair p) s.cpu.f
  .next (((s.setHl r.1).setF r.2).took 8)

/-- R221: no flag changes. -/
def execIncRr (p : Pair) (s : State) : Result := .next ((s.setPair p (s.pair p + 1)).took 8)

/-- R222: no flag changes. -/
def execDecRr (p : Pair) (s : State) : Result := .next ((s.setPair p (s.pair p - 1)).took 8)

/-- R223. -/
def execAddSpE (e : Byte) (s : State) : Result :=
  let r := aluAddSp s.cpu.sp e
  .next (((s.setSp r.1).setF r.2).took 16)

end Sys2Proof.Machine
end

