-- ==== Sys2Proof/Machine/Alu8.lean ====
section
/-! DEFINITION. 8-bit arithmetic and logic, spec/42_alu8.md. -/

namespace Sys2Proof.Machine

/-! The operand x of R180: a register (4 cycles), the byte at HL (8), an immediate (8). -/

/-- R181. -/
def execAddR (r : Reg8) (s : State) : Result := .next ((s.setAFlags (aluAdc s.cpu.a (s.reg r) false)).took 4)

/-- R181. -/
def execAddM (s : State) : Result := .next ((s.setAFlags (aluAdc s.cpu.a s.readM false)).took 8)

/-- R181. -/
def execAddN (n : Byte) (s : State) : Result := .next ((s.setAFlags (aluAdc s.cpu.a n false)).took 8)

/-- R182. -/
def execAdcR (r : Reg8) (s : State) : Result := .next ((s.setAFlags (aluAdc s.cpu.a (s.reg r) (flagC s.cpu.f))).took 4)

/-- R182. -/
def execAdcM (s : State) : Result := .next ((s.setAFlags (aluAdc s.cpu.a s.readM (flagC s.cpu.f))).took 8)

/-- R182. -/
def execAdcN (n : Byte) (s : State) : Result := .next ((s.setAFlags (aluAdc s.cpu.a n (flagC s.cpu.f))).took 8)

/-- R183. -/
def execSubR (r : Reg8) (s : State) : Result := .next ((s.setAFlags (aluSbc s.cpu.a (s.reg r) false)).took 4)

/-- R183. -/
def execSubM (s : State) : Result := .next ((s.setAFlags (aluSbc s.cpu.a s.readM false)).took 8)

/-- R183. -/
def execSubN (n : Byte) (s : State) : Result := .next ((s.setAFlags (aluSbc s.cpu.a n false)).took 8)

/-- R184. -/
def execSbcR (r : Reg8) (s : State) : Result := .next ((s.setAFlags (aluSbc s.cpu.a (s.reg r) (flagC s.cpu.f))).took 4)

/-- R184. -/
def execSbcM (s : State) : Result := .next ((s.setAFlags (aluSbc s.cpu.a s.readM (flagC s.cpu.f))).took 8)

/-- R184. -/
def execSbcN (n : Byte) (s : State) : Result := .next ((s.setAFlags (aluSbc s.cpu.a n (flagC s.cpu.f))).took 8)

/-- R185. -/
def execAndR (r : Reg8) (s : State) : Result := .next ((s.setAFlags (aluAnd s.cpu.a (s.reg r))).took 4)

/-- R185. -/
def execAndM (s : State) : Result := .next ((s.setAFlags (aluAnd s.cpu.a s.readM)).took 8)

/-- R185. -/
def execAndN (n : Byte) (s : State) : Result := .next ((s.setAFlags (aluAnd s.cpu.a n)).took 8)

/-- R186. -/
def execXorR (r : Reg8) (s : State) : Result := .next ((s.setAFlags (aluXor s.cpu.a (s.reg r))).took 4)

/-- R186. -/
def execXorM (s : State) : Result := .next ((s.setAFlags (aluXor s.cpu.a s.readM)).took 8)

/-- R186. -/
def execXorN (n : Byte) (s : State) : Result := .next ((s.setAFlags (aluXor s.cpu.a n)).took 8)

/-- R187. -/
def execOrR (r : Reg8) (s : State) : Result := .next ((s.setAFlags (aluOr s.cpu.a (s.reg r))).took 4)

/-- R187. -/
def execOrM (s : State) : Result := .next ((s.setAFlags (aluOr s.cpu.a s.readM)).took 8)

/-- R187. -/
def execOrN (n : Byte) (s : State) : Result := .next ((s.setAFlags (aluOr s.cpu.a n)).took 8)

/-- R188: the flags of SUB, A not written. -/
def execCpR (r : Reg8) (s : State) : Result := .next ((s.setF (aluSbc s.cpu.a (s.reg r) false).f).took 4)

/-- R188: the flags of SUB, A not written. -/
def execCpM (s : State) : Result := .next ((s.setF (aluSbc s.cpu.a s.readM false).f).took 8)

/-- R188: the flags of SUB, A not written. -/
def execCpN (n : Byte) (s : State) : Result := .next ((s.setF (aluSbc s.cpu.a n false).f).took 8)

/-- R189. -/
def execIncR (d : Reg8) (s : State) : Result :=
  .next ((s.setRegAlu d (aluInc (s.reg d) s.cpu.f)).took 4)

/-- R190: one read, then one write of the same address. -/
def execIncM (s : State) : Result :=
  .next ((s.writeMAlu (aluInc s.readM s.cpu.f)).took 12)

/-- R191. -/
def execDecR (d : Reg8) (s : State) : Result :=
  .next ((s.setRegAlu d (aluDec (s.reg d) s.cpu.f)).took 4)

/-- R192: one read, then one write of the same address. -/
def execDecM (s : State) : Result :=
  .next ((s.writeMAlu (aluDec s.readM s.cpu.f)).took 12)

/-- R193. -/
def execDaa (s : State) : Result := .next ((s.setAFlags (aluDaa s.cpu.a s.cpu.f)).took 4)

/-- R194. -/
def execCpl (s : State) : Result := .next ((s.setAFlags (aluCpl s.cpu.a s.cpu.f)).took 4)

/-- R195. -/
def execScf (s : State) : Result := .next ((s.setF (scfFlags s.cpu.f)).took 4)

/-- R196. -/
def execCcf (s : State) : Result := .next ((s.setF (ccfFlags s.cpu.f)).took 4)

end Sys2Proof.Machine
end

