-- ==== Sys2Proof/Machine/Control.lean ====
section
/-! DEFINITION. Control transfer, spec/45_control.md. -/

namespace Sys2Proof.Machine

/-- R261. -/
def execJpNn (nn : Word) (s : State) : Result := .next ((s.setPc nn).took 16)

/-- R262. -/
def execJpCcNn (cc : Cond) (nn : Word) (s : State) : Result :=
  if s.cond cc then .next ((s.setPc nn).took 16) else .next (s.took 12)

/-- R263: the target is HL itself; no memory is read. -/
def execJpHl (s : State) : Result := .next ((s.setPc s.hl).took 4)

/-- R264. -/
def execJrE (e : Byte) (s : State) : Result := .next ((s.setPc (s.relTarget e)).took 12)

/-- R265. -/
def execJrCcE (cc : Cond) (e : Byte) (s : State) : Result :=
  if s.cond cc then .next ((s.setPc (s.relTarget e)).took 12) else .next (s.took 8)

/-- R266. -/
def execCallNn (nn : Word) (s : State) : Result := .next ((s.call nn).took 24)

/-- R267. -/
def execCallCcNn (cc : Cond) (nn : Word) (s : State) : Result :=
  if s.cond cc then .next ((s.call nn).took 24) else .next (s.took 12)

/-- R268. -/
def execRet (s : State) : Result := .next (s.doRet.took 16)

/-- R269. -/
def execRetCc (cc : Cond) (s : State) : Result :=
  if s.cond cc then .next (s.doRet.took 20) else .next (s.took 8)

/-- R270, R330. -/
def execReti (s : State) : Result := .next (s.returnFromInterrupt.took 16)

/-- R271. -/
def execRst (t : BitVec 3) (s : State) : Result := .next ((s.call (rstTarget t)).took 16)

end Sys2Proof.Machine
end

