-- ==== Sys2Proof/Machine/Rotate.lean ====
section
/-! DEFINITION. Rotates, shifts and bit operations, spec/44_rotate_shift_bit.md. -/

namespace Sys2Proof.Machine

/-- R230. -/
def execRlca (s : State) : Result := .next ((s.setAFlags (accRotate (rotLeft s.cpu.a))).took 4)

/-- R231. -/
def execRrca (s : State) : Result := .next ((s.setAFlags (accRotate (rotRight s.cpu.a))).took 4)

/-- R232. -/
def execRla (s : State) : Result := .next ((s.setAFlags (accRotate (rotLeftCarry s.cpu.a (flagC s.cpu.f)))).took 4)

/-- R233. -/
def execRra (s : State) : Result := .next ((s.setAFlags (accRotate (rotRightCarry s.cpu.a (flagC s.cpu.f)))).took 4)

/-! The extended set: register forms 8 cycles, `(HL)` forms 16, BIT b,(HL) 12 (R234). -/

/-- R235. -/
def execRlcR (r : Reg8) (s : State) : Result := .next ((s.setRegAlu r (cbShift (rotLeft (s.reg r)))).took 8)

/-- R235. -/
def execRlcM (s : State) : Result := .next ((s.writeMAlu (cbShift (rotLeft s.readM))).took 16)

/-- R236. -/
def execRrcR (r : Reg8) (s : State) : Result := .next ((s.setRegAlu r (cbShift (rotRight (s.reg r)))).took 8)

/-- R236. -/
def execRrcM (s : State) : Result := .next ((s.writeMAlu (cbShift (rotRight s.readM))).took 16)

/-- R237. -/
def execRlR (r : Reg8) (s : State) : Result := .next ((s.setRegAlu r (cbShift (rotLeftCarry (s.reg r) (flagC s.cpu.f)))).took 8)

/-- R237. -/
def execRlM (s : State) : Result := .next ((s.writeMAlu (cbShift (rotLeftCarry s.readM (flagC s.cpu.f)))).took 16)

/-- R238. -/
def execRrR (r : Reg8) (s : State) : Result := .next ((s.setRegAlu r (cbShift (rotRightCarry (s.reg r) (flagC s.cpu.f)))).took 8)

/-- R238. -/
def execRrM (s : State) : Result := .next ((s.writeMAlu (cbShift (rotRightCarry s.readM (flagC s.cpu.f)))).took 16)

/-- R239. -/
def execSlaR (r : Reg8) (s : State) : Result := .next ((s.setRegAlu r (cbShift (shiftLeft (s.reg r)))).took 8)

/-- R239. -/
def execSlaM (s : State) : Result := .next ((s.writeMAlu (cbShift (shiftLeft s.readM))).took 16)

/-- R240. -/
def execSraR (r : Reg8) (s : State) : Result := .next ((s.setRegAlu r (cbShift (shiftRightArith (s.reg r)))).took 8)

/-- R240. -/
def execSraM (s : State) : Result := .next ((s.writeMAlu (cbShift (shiftRightArith s.readM))).took 16)

/-- R241. -/
def execSwapR (r : Reg8) (s : State) : Result := .next ((s.setRegAlu r (cbShift (swapNibbles (s.reg r)))).took 8)

/-- R241. -/
def execSwapM (s : State) : Result := .next ((s.writeMAlu (cbShift (swapNibbles s.readM))).took 16)

/-- R242. -/
def execSrlR (r : Reg8) (s : State) : Result := .next ((s.setRegAlu r (cbShift (shiftRightLogic (s.reg r)))).took 8)

/-- R242. -/
def execSrlM (s : State) : Result := .next ((s.writeMAlu (cbShift (shiftRightLogic s.readM))).took 16)

/-- R243. -/
def execBitR (b : BitVec 3) (r : Reg8) (s : State) : Result := .next ((s.setF (bitFlags b (s.reg r) s.cpu.f)).took 8)

/-- R243: no write. -/
def execBitM (b : BitVec 3) (s : State) : Result := .next ((s.setF (bitFlags b s.readM s.cpu.f)).took 12)

/-- R244. -/
def execResR (b : BitVec 3) (r : Reg8) (s : State) : Result :=
  .next ((s.setReg r (clearBit b.toNat (s.reg r))).took 8)

/-- R244. -/
def execResM (b : BitVec 3) (s : State) : Result := .next ((s.writeM (clearBit b.toNat s.readM)).took 16)

/-- R245. -/
def execSetR (b : BitVec 3) (r : Reg8) (s : State) : Result :=
  .next ((s.setReg r (setBit b.toNat (s.reg r))).took 8)

/-- R245. -/
def execSetM (b : BitVec 3) (s : State) : Result := .next ((s.writeM (setBit b.toNat s.readM)).took 16)

end Sys2Proof.Machine
end

