-- ==== Sys2Proof/Machine/Extended.lean ====
section
/-! DEFINITION. The extended set reached by its second byte, spec/30_encoding.md R104, R111. -/

namespace Sys2Proof.Machine

/-- The operand the 3-bit code names: a register, or the byte at HL for 110 (R106). -/
def onOperand (code : Nat) (r : Reg8 → State → Result) (m : State → Result) (s : State) : Result :=
  match reg8Of code with
  | some x => r x s
  | none => m s

/-- R104, R111: what 0xCB followed by `op2` does, by the fields x2, y2, z2. -/
def execPrefixCb (op2 : Byte) (s : State) : Result :=
  let z := fieldZ op2
  let b := BitVec.ofNat 3 (fieldY op2)
  match fieldX op2 with
  | 0 =>
    match fieldY op2 with
    | 0 => onOperand z execRlcR execRlcM s
    | 1 => onOperand z execRrcR execRrcM s
    | 2 => onOperand z execRlR execRlM s
    | 3 => onOperand z execRrR execRrM s
    | 4 => onOperand z execSlaR execSlaM s
    | 5 => onOperand z execSraR execSraM s
    | 6 => onOperand z execSwapR execSwapM s
    | _ => onOperand z execSrlR execSrlM s
  | 1 => onOperand z (execBitR b) (execBitM b) s
  | 2 => onOperand z (execResR b) (execResM b) s
  | _ => onOperand z (execSetR b) (execSetM b) s

end Sys2Proof.Machine
end

