-- ==== Sys2Proof/Machine/Load16.lean ====
section
/-! DEFINITION. 16-bit loads and the stack, spec/41_load16.md. -/

namespace Sys2Proof.Machine

/-- R160. -/
def execLdRrNn (p : Pair) (nn : Word) (s : State) : Result := .next ((s.setPair p nn).took 12)

/-- R161. -/
def execLdNnSp (nn : Word) (s : State) : Result := .next ((s.storeWord nn s.cpu.sp).took 20)

/-- R162. -/
def execLdSpHl (s : State) : Result := .next ((s.setSp s.hl).took 8)

/-- R163. -/
def execLdHlSpE (e : Byte) (s : State) : Result :=
  let r := aluAddSp s.cpu.sp e
  .next (((s.setHl r.1).setF r.2).took 12)

/-- R164. -/
def execPush (q : StackPair) (s : State) : Result := .next ((s.push16 (s.stackPair q)).took 16)

/-- R165. -/
def execPop (q : StackPair) (s : State) : Result := .next ((s.popped.setStackPair q s.popValue).took 12)

end Sys2Proof.Machine
end

