-- ==== Sys2Proof/Machine/Load8.lean ====
section
/-! DEFINITION. 8-bit loads, spec/40_load8.md. Each meaning runs after the fetch: PC is past the instruction. -/

namespace Sys2Proof.Machine

/-- R130. -/
def execLdRR (d r : Reg8) (s : State) : Result := .next ((s.setReg d (s.reg r)).took 4)

/-- R131. -/
def execLdRN (d : Reg8) (n : Byte) (s : State) : Result := .next ((s.setReg d n).took 8)

/-- R132. -/
def execLdRM (d : Reg8) (s : State) : Result := .next ((s.setReg d s.readM).took 8)

/-- R133. -/
def execLdMR (r : Reg8) (s : State) : Result := .next ((s.writeM (s.reg r)).took 8)

/-- R134. -/
def execLdMN (n : Byte) (s : State) : Result := .next ((s.writeM n).took 12)

/-- R135. -/
def execLdABc (s : State) : Result := .next ((s.loadA s.bc).took 8)

/-- R136. -/
def execLdADe (s : State) : Result := .next ((s.loadA s.de).took 8)

/-- R137. -/
def execLdBcA (s : State) : Result := .next ((s.storeA s.bc).took 8)

/-- R138. -/
def execLdDeA (s : State) : Result := .next ((s.storeA s.de).took 8)

/-- R139. -/
def execLdANn (nn : Word) (s : State) : Result := .next ((s.loadA nn).took 16)

/-- R140. -/
def execLdNnA (nn : Word) (s : State) : Result := .next ((s.storeA nn).took 16)

/-- R141. -/
def execLdhAC (s : State) : Result := .next ((s.loadA (highPage s.cpu.c)).took 8)

/-- R142. -/
def execLdhCA (s : State) : Result := .next ((s.storeA (highPage s.cpu.c)).took 8)

/-- R143. -/
def execLdhAN (n : Byte) (s : State) : Result := .next ((s.loadA (highPage n)).took 12)

/-- R144. -/
def execLdhNA (n : Byte) (s : State) : Result := .next ((s.storeA (highPage n)).took 12)

/-- R145. -/
def execLdAHli (s : State) : Result := .next (((s.loadA s.hl).setHl (s.hl + 1)).took 8)

/-- R146. -/
def execLdAHld (s : State) : Result := .next (((s.loadA s.hl).setHl (s.hl - 1)).took 8)

/-- R147: HL moves even when the write is dropped. -/
def execLdHliA (s : State) : Result := .next (((s.storeA s.hl).setHl (s.hl + 1)).took 8)

/-- R148: HL moves even when the write is dropped. -/
def execLdHldA (s : State) : Result := .next (((s.storeA s.hl).setHl (s.hl - 1)).took 8)

end Sys2Proof.Machine
end

