-- ==== Sys2Proof/Machine/System.lean ====
section
/-! DEFINITION. NOP, HALT, STOP, DI, EI and the illegal opcodes, spec/46_misc_system.md. -/

namespace Sys2Proof.Machine

/-- R290. -/
def execNop (s : State) : Result := .next (s.took 4)

/-- R291: halts, or sets up the HALT bug. -/
def execHalt (s : State) : Result :=
  if s.cpu.ime = false ∧ s.pending ≠ 0 then .next ({ s with cpu := { s.cpu with haltBug := true } }.took 4)
  else .next ({ s with cpu := { s.cpu with halted := true } }.took 4)

/-- R292: by STOP_MODE, a 2-byte NOP or a refusal. The padding byte is ignored. -/
def execStop (_n : Byte) (s : State) : Result :=
  match s.params.stopMode with
  | .nop2 => .next (s.took 4)
  | .refuse => .refused .stopHasNoMeaning

/-- R293. -/
def execDi (s : State) : Result := .next ({ s with cpu := { s.cpu with ime := false, imePending := false } }.took 4)

/-- R294: by EI_DELAY, after the next instruction or at once. -/
def execEi (s : State) : Result :=
  if s.params.eiDelay then .next ({ s with cpu := { s.cpu with imePending := true } }.took 4)
  else .next ({ s with cpu := { s.cpu with ime := true } }.took 4)

/-! The eleven illegal opcodes, R295: `raise InvalidOpcode(op)`. -/

/-- R295. -/
def execIllegalD3 (s : State) : Result := (s.raiseInvalidOpcode 0xD3).outcome

/-- R295. -/
def execIllegalDB (s : State) : Result := (s.raiseInvalidOpcode 0xDB).outcome

/-- R295. -/
def execIllegalDD (s : State) : Result := (s.raiseInvalidOpcode 0xDD).outcome

/-- R295. -/
def execIllegalE3 (s : State) : Result := (s.raiseInvalidOpcode 0xE3).outcome

/-- R295. -/
def execIllegalE4 (s : State) : Result := (s.raiseInvalidOpcode 0xE4).outcome

/-- R295. -/
def execIllegalEB (s : State) : Result := (s.raiseInvalidOpcode 0xEB).outcome

/-- R295. -/
def execIllegalEC (s : State) : Result := (s.raiseInvalidOpcode 0xEC).outcome

/-- R295. -/
def execIllegalED (s : State) : Result := (s.raiseInvalidOpcode 0xED).outcome

/-- R295. -/
def execIllegalF4 (s : State) : Result := (s.raiseInvalidOpcode 0xF4).outcome

/-- R295. -/
def execIllegalFC (s : State) : Result := (s.raiseInvalidOpcode 0xFC).outcome

/-- R295. -/
def execIllegalFD (s : State) : Result := (s.raiseInvalidOpcode 0xFD).outcome

end Sys2Proof.Machine
end

