-- ==== Sys2Proof/Machine/Fetch.lean ====
section
/-! DEFINITION. Fetching an instruction: spec/60_exceptions.md R326, 30_encoding.md R113, 10_state.md R27.
No read has a side effect (20_memory.md R81), so the bytes an instruction may have are read first and PC is moved by the
length its first byte gives; the bytes beyond that length are not looked at. -/

namespace Sys2Proof.Machine

/-- `FetchOpcode()`'s byte. -/
def State.opcodeByte (s : State) : Byte := s.memRead .fetch0 s.cpu.pc

/-- PC after `FetchOpcode()`: unmoved by the HALT bug. -/
def State.pcAfterOpcode (s : State) : Word := if s.cpu.haltBug then s.cpu.pc else s.cpu.pc + 1

/-- The instruction at PC. -/
def State.fetched (s : State) : Instr :=
  decode s.opcodeByte (s.memRead .fetch1 s.pcAfterOpcode) (s.memRead .fetch2 (s.pcAfterOpcode + 1))

/-- The state an instruction's effect starts from: PC past the whole instruction, the HALT bug consumed. -/
def State.afterFetch (s : State) : State :=
  { s with cpu := { s.cpu with
      pc := s.pcAfterOpcode + BitVec.ofNat 16 (opcodeLength s.opcodeByte - 1)
      haltBug := false } }

end Sys2Proof.Machine
end

