-- ==== Sys2Proof/Machine/HostEvents.lean ====
section
/-! DEFINITION. What the host may do between two steps (spec/60_exceptions.md R340) and reset (70_reset_and_hazards.md R511). -/

namespace Sys2Proof.Machine

/-- `Reset()` of R511 for a loaded cartridge, parameters and device: (1) every register from RESET_<name>, (2) the
bank-select state, (3) RAM from RAM_INIT and external RAM from the saved image if there is one, (4) no fault. -/
def State.launch (cart : Cart) (params : Params) (device : SerialDevice) (saved : Option Memory) : State :=
  let rp := params.resetValues
  { cpu := { rp.cpu with fault := none }
    ifReg := rp.ifReg
    ie := rp.ie
    vram := params.ramInit.vram
    wram := params.ramInit.wram
    oam := params.ramInit.oam
    hram := params.ramInit.hram
    timer := rp.timer
    dma := rp.dma
    ppu := rp.ppu
    serial := { rp.serial with device := device }
    joypad := rp.joypad
    cart := { cart with mapper := rp.mapper cart.mapper, eram := saved.getD params.ramInit.eram }
    params := params
    inputs := []
    cycles := 0
    apuSeq := 0 }

/-- Reset in mid-run (R511): ROM, parameters and device stay; log entry 19. -/
def State.hostReset (keepEram : Bool) (s : State) : State :=
  { State.launch s.cart s.params s.serial.device (if keepEram then some s.cart.eram else none) with
    inputs := s.inputs
    apuSeq := s.apuSeq }

/-- One event of R340. A pulse acts whatever device is attached, as R495's pseudocode does; that with none "no pulse ever
comes" is left to the list of events, and a list may break it (log entry 24). -/
def applyEvent (s : State) : HostEvent → State
  | .button b pressed =>
    { s with joypad := (setButton s.joypad b pressed).1
             ifReg := s.ifReg ||| requestIf (setButton s.joypad b pressed).2 irqJoypad }
  | .serialPulse =>
    { s with serial := (serialPulse s.serial).1
             ifReg := s.ifReg ||| requestIf (serialPulse s.serial).2 irqSerial }
  | .attach dev => { s with serial := { s.serial with device := dev } }
  | .takeFrame => s.withPpu { s.ppu with frameComplete := false }
  | .reset keepEram => s.hostReset keepEram

/-- The events due before this step, in order. -/
def State.applyInputs (s : State) : State :=
  match s.inputs with
  | [] => s
  | batch :: rest => batch.foldl applyEvent { s with inputs := rest }

end Sys2Proof.Machine
end

