-- ==== Sys2Proof/Machine/Run.lean ====
section
/-! DEFINITION. `CpuStep` and `SystemStep`, spec/60_exceptions.md R310, R314. -/

namespace Sys2Proof.Machine

/-- R325: the halted state ends; all else stays. -/
def State.awake (s : State) : State := { s with cpu := { s.cpu with halted := false } }

/-- R314: "if ime_pending = 1 then IME <- 1; ime_pending <- 0". -/
def State.enableDelayed (s : State) : State :=
  if s.cpu.imePending then { s with cpu := { s.cpu with ime := true, imePending := false } } else s

/-- `op <- FetchOpcode(); return Execute(op)`. -/
def State.executeNext (s : State) : Result := exec s.fetched s.afterFetch

/-- `CpuStep()` of R314; `cycles` holds the count it returns. -/
def cpuStep (s : State) : Result :=
  if s.cpu.halted ∧ s.pending = 0 then .next (s.took s.params.haltTickCycles)
  else if s.cpu.ime ∧ s.pending ≠ 0 then .next (s.awake.takeInterrupt s.pending)
  else s.awake.enableDelayed.executeNext

/-- `SystemStep()` of R310. -/
def systemStep (s : State) : Result :=
  match s.cpu.fault with
  | some op => .fault (.invalidOpcode op)
  | none =>
    match cpuStep s with
    | .next t => .next (t.advance t.cycles)
    | .fault r => .fault r
    | .refused r => .refused r

end Sys2Proof.Machine
end

