-- ==== Sys2Proof/Machine/Load.lean ====
section
/-! DEFINITION. The host's load of a program's bytes, from outside the machine (spec/60_exceptions.md R340 (a); log entries 3 and 16). -/

namespace Sys2Proof.Machine

/-- Whether the byte at an address can be placed from outside and then fetched. -/
def State.holdsCode (s : State) (a : Word) : Bool :=
  !s.isBlocked a &&
  match ownerOf a with
  | .rom _ | .vram _ | .wram _ | .hram _ => true
  | _ => false

/-- The byte an address shows, set from outside. -/
def State.placeByte (s : State) (a : Word) (v : Byte) : State :=
  match ownerOf a with
  | .rom n => { s with cart := { s.cart with rom := s.cart.rom.write (cartRomIndex s.cart n) v } }
  | .vram off => { s with vram := s.vram.write off v }
  | .wram off => { s with wram := s.wram.write off v }
  | .hram off => { s with hram := s.hram.write off v }
  | _ => s

/-- Three bytes from `a` on. -/
def State.placeCode (s : State) (a : Word) (b : Byte × Byte × Byte) : State :=
  ((s.placeByte a b.1).placeByte (a + 1) b.2.1).placeByte (a + 2) b.2.2

/-- The state whose next step is an instruction fetch at PC: no host event, no standing fault, not halted, no HALT bug,
and no dispatch. -/
def State.readyToFetch (s : State) : State :=
  { s with
    inputs := []
    cpu := { s.cpu with
      fault := none
      halted := false
      haltBug := false
      ime := if s.pending = 0 then s.cpu.ime else false } }

/-- PC where it is if the three bytes there can hold code, else HRAM's first byte. -/
def State.codePc (s : State) : Word :=
  if s.holdsCode s.cpu.pc && s.holdsCode (s.cpu.pc + 1) && s.holdsCode (s.cpu.pc + 2) then s.cpu.pc else 0xFF80

/-- The three bytes placed where the next step fetches. -/
def State.withCode (s : State) (b : Byte × Byte × Byte) : State :=
  (s.readyToFetch.setPc s.codePc).placeCode s.codePc b

end Sys2Proof.Machine
end

