-- ==== Sys2Proof/Machine/Step.lean ====
section
/-! DEFINITION. One step of the machine: the host's events that are due, then `SystemStep` (spec/60_exceptions.md R310, R340). -/

namespace Sys2Proof.Machine

/-- One step. -/
def step (s : State) : Result := systemStep s.applyInputs

/-- An opcode-table word placed where the next step fetches (log entry 16). -/
def State.withFetchWord (s : State) (nbits w : Nat) : State := s.withCode (tableBytes nbits w)

end Sys2Proof.Machine
end

