-- ==== Sys2Proof/Safety.lean ====
section
/-! DEFINITION. The terms the claims are stated in: invariants of the machine, what an instruction may change, where it
stores, what a store may change, and what a run that never stops is. -/

namespace Sys2Proof.Machine

/-! ### Runs -/

/-- A step from here answers a next state. -/
def State.Goes (s : State) : Prop := ∃ t, step s = .next t

/-- `n` steps from here all answer a next state: no fault, no refusal. -/
def State.SafeFor : Nat → State → Prop
  | 0, _ => True
  | n + 1, s => ∃ t, step s = .next t ∧ t.SafeFor n

/-! ### The flag byte in the integers, R24 -/

/-- `z<<7 | n<<6 | h<<5 | c<<4`. -/
def flagsByte (z n h c : Bool) : Byte := BitVec.ofNat 8 (128 * bit z + 64 * bit n + 32 * bit h + 16 * bit c)

/-! ### Where an instruction stores -/

/-- The row `PREFIX_CB` stands for the instruction its second byte selects (R104). -/
def resolved : Instr → Instr
  | .prefixCb op2 => decodeCb op2
  | i => i

/-- `Push16` in the two stores of R10. -/
def State.pushStores (s : State) (v : Word) : List (Word × Byte) :=
  [(s.cpu.sp - 1, hiByte v), (s.cpu.sp - 2, loByte v)]

/-- Every store an instruction makes, in order: address and byte. `s` is the state after the fetch. -/
def storesOf (i : Instr) (s : State) : List (Word × Byte) :=
  match i with
  | .ldMR r => [(s.hl, s.reg r)]
  | .ldMN n => [(s.hl, n)]
  | .ldBcA => [(s.bc, s.cpu.a)]
  | .ldDeA => [(s.de, s.cpu.a)]
  | .ldNnA nn => [(nn, s.cpu.a)]
  | .ldhCA => [(highPage s.cpu.c, s.cpu.a)]
  | .ldhNA n => [(highPage n, s.cpu.a)]
  | .ldHliA => [(s.hl, s.cpu.a)]
  | .ldHldA => [(s.hl, s.cpu.a)]
  | .ldNnSp nn => [(nn, loByte s.cpu.sp), (nn + 1, hiByte s.cpu.sp)]
  | .push q => s.pushStores (s.stackPair q)
  | .incM => [(s.hl, s.readM + 1)]
  | .decM => [(s.hl, s.readM - 1)]
  | .callNn _ => s.pushStores s.cpu.pc
  | .callCcNn cc _ => if s.cond cc then s.pushStores s.cpu.pc else []
  | .rst _ => s.pushStores s.cpu.pc
  | .rlcM => [(s.hl, (rotLeft s.readM).1)]
  | .rrcM => [(s.hl, (rotRight s.readM).1)]
  | .rlM => [(s.hl, (rotLeftCarry s.readM (flagC s.cpu.f)).1)]
  | .rrM => [(s.hl, (rotRightCarry s.readM (flagC s.cpu.f)).1)]
  | .slaM => [(s.hl, (shiftLeft s.readM).1)]
  | .sraM => [(s.hl, (shiftRightArith s.readM).1)]
  | .swapM => [(s.hl, (swapNibbles s.readM).1)]
  | .srlM => [(s.hl, (shiftRightLogic s.readM).1)]
  | .resM b => [(s.hl, clearBit b.toNat s.readM)]
  | .setM b => [(s.hl, setBit b.toNat s.readM)]
  | _ => []

/-- The stores made one after the other. -/
def State.storeAll (s : State) (l : List (Word × Byte)) : State := l.foldl (fun u p => u.memWrite p.1 p.2) s

/-! ### What a store may change: R61, R68, R81 and the rules of the registers with side effects -/

/-- Whether a store to owner `o` may change what a read of owner `x` gives. A byte of RAM changes itself alone; of the
registers, P1, DIV, LYC, LCDC and DMA reach others (R500, R354, R402, R398, R371), a bank register both cartridge windows. -/
def Owner.storeReaches (c : Cart) (o x : Owner) : Bool :=
  match o with
  | .rom _ => match x with | .rom _ => true | .eram _ => true | _ => false
  | .eram m => match x with | .eram n => ramTarget c m == ramTarget c n | _ => false
  | .io .p1 => x == .io .p1 || x == .io .ifl
  | .io .div => x == .io .div || x == .io .tima || x == .io .ifl
  | .io .lyc => x == .io .lyc || x == .io .stat
  | .io .lcdc =>
    match x with
    | .io .lcdc => true
    | .io .stat => true
    | .io .ly => true
    | .vram _ => true
    | .oam _ => true
    | _ => false
  | .io .dma => match x with | .hram _ => false | _ => true
  | o => o == x

/-- Whether a store to `a` may change what a read of `x` gives. -/
def State.storeReaches (s : State) (a x : Word) : Bool := (ownerOf a).storeReaches s.cart (ownerOf x)

/-- No store of the list, each in the state it meets, reaches `x`. -/
def State.outOfReach (x : Word) : State → List (Word × Byte) → Bool
  | _, [] => true
  | s, (a, v) :: rest => !s.storeReaches a x && State.outOfReach x (s.memWrite a v) rest

/-- An address of plain memory: a byte of RAM that reads back what is stored. -/
def State.isPlainRam (s : State) (a : Word) : Bool :=
  match ownerOf a with
  | .vram _ | .wram _ | .oam _ | .hram _ => true
  | .eram off => match ramTarget s.cart off with | .cell _ => true | _ => false
  | _ => false

/-- A 4-bit cell of an MBC2 (R457). -/
def State.isMbc2Cell (s : State) (a : Word) : Bool :=
  match ownerOf a with
  | .eram off => match ramTarget s.cart off with | .nibble _ => true | _ => false
  | _ => false

/-- Whether two addresses show one byte: the same owner and offset (R61, R68), or two addresses of the external RAM
window behind which the same cell lies (R444: a small RAM repeats through the window; R457). -/
def State.sameByte (s : State) (a x : Word) : Bool :=
  ownerOf x == ownerOf a ||
  match ownerOf a, ownerOf x with
  | .eram m, .eram n => ramTarget s.cart n == ramTarget s.cart m
  | _, _ => false

/-! ### Encodings in the integers, R105 to R108, and what a byte sequence reads as -/

/-- The code of R106. -/
def regNum : Reg8 → Nat
  | .b => 0
  | .c => 1
  | .d => 2
  | .e => 3
  | .h => 4
  | .l => 5
  | .a => 7

/-- Table rr of R107. -/
def pairNum : Pair → Nat
  | .bc => 0
  | .de => 1
  | .hl => 2
  | .sp => 3

/-- Table qq of R107. -/
def stackPairNum : StackPair → Nat
  | .bc => 0
  | .de => 1
  | .hl => 2
  | .af => 3

/-- R108. -/
def condNum : Cond → Nat
  | .nz => 0
  | .z => 1
  | .nc => 2
  | .c => 3

/-- The bytes, all of them and no more, are the instruction (encoding and length of a rule). -/
def Reads (bytes : List Byte) (i : Instr) : Prop := decodeBytes bytes = .ok (i, [])

/-- A byte given as a number. -/
def byteOf (n : Nat) : Byte := BitVec.ofNat 8 n

/-- R260, from the bits of F. -/
def condHolds (cc : Cond) (f : Byte) : Bool :=
  match cc with
  | .nz => !f.getLsbD 7
  | .z => f.getLsbD 7
  | .nc => !f.getLsbD 4
  | .c => f.getLsbD 4

/-! ### Shapes of a result -/

/-- `t` is `s` with register `d` holding `v`, F holding `f`, the cycle count `n`, and nothing else changed. -/
def State.SetTo (s t : State) (d : Reg8) (v f : Byte) (n : Nat) : Prop :=
  t.reg d = v ∧ (∀ q, q ≠ d → t.reg q = s.reg q) ∧
  t = { s with
    cpu := { s.cpu with
      a := t.cpu.a, b := t.cpu.b, c := t.cpu.c, d := t.cpu.d, e := t.cpu.e, h := t.cpu.h, l := t.cpu.l, f := f }
    cycles := n }

/-- `t` is `s` with pair `p` holding `v`, the cycle count `n`, and nothing else changed. -/
def State.SetPairTo (s t : State) (p : Pair) (v : Word) (n : Nat) : Prop :=
  t.pair p = v ∧ (∀ q, q ≠ p → t.pair q = s.pair q) ∧
  t = { s with
    cpu := { s.cpu with
      b := t.cpu.b, c := t.cpu.c, d := t.cpu.d, e := t.cpu.e, h := t.cpu.h, l := t.cpu.l, sp := t.cpu.sp }
    cycles := n }

/-- R180 and one accumulator operation: its three forms read from their bytes and, run, put `val` of A, x and the carry
in A and `flags` of them in F, in 4, 8 and 8 cycles, changing nothing else. -/
def AccOp (k : Nat) (iR : Reg8 → Instr) (iM : Instr) (iN : Byte → Instr) (val flags : Nat → Nat → Nat → Byte) : Prop :=
  ∀ s : State,
    let a := s.cpu.a.toNat
    let c := bit (s.cpu.f.getLsbD 4)
    (∀ r, Reads [byteOf (0x80 + 8 * k + regNum r)] (iR r) ∧
      ∃ t, exec (iR r) s = .next t ∧ s.SetTo t .a (val a (s.reg r).toNat c) (flags a (s.reg r).toNat c) 4) ∧
    (Reads [byteOf (0x86 + 8 * k)] iM ∧
      ∃ t, exec iM s = .next t ∧
        s.SetTo t .a (val a (s.memRead .dataLo s.hl).toNat c) (flags a (s.memRead .dataLo s.hl).toNat c) 8) ∧
    (∀ n, Reads [byteOf (0xC6 + 8 * k), n] (iN n) ∧
      ∃ t, exec (iN n) s = .next t ∧ s.SetTo t .a (val a n.toNat c) (flags a n.toNat c) 8)

/-- R234 and one rotate, shift or SWAP: both forms read from their bytes and, run, write `val` of the operand and the
carry back to it, with Z from the result, N = H = 0, C = `carry`, in 8 and 16 cycles, changing nothing else. -/
def CbOp (k : Nat) (iR : Reg8 → Instr) (iM : Instr) (val : Nat → Nat → Nat) (carry : Nat → Bool) : Prop :=
  ∀ s : State,
    let c := bit (s.cpu.f.getLsbD 4)
    (∀ r, Reads [0xCB, byteOf (8 * k + regNum r)] (iR r) ∧
      ∃ t, exec (iR r) s = .next t ∧
        s.SetTo t r (byteOf (val (s.reg r).toNat c))
          (flagsByte (val (s.reg r).toNat c % 256 == 0) false false (carry (s.reg r).toNat)) 8) ∧
    (Reads [0xCB, byteOf (8 * k + 6)] iM ∧
      let v := (s.memRead .dataLo s.hl).toNat
      exec iM s = .next { s.memWrite s.hl (byteOf (val v c)) with
        cpu := { s.cpu with f := flagsByte (val v c % 256 == 0) false false (carry v) }
        cycles := 16 })

/-! ### What an instruction may change in the CPU -/

/-- The 8-bit registers an instruction's rule writes, HL of `(HL+)` and `(HL-)` included. -/
def destRegs : Instr → List Reg8
  | .ldRR d _ => [d]
  | .ldRN d _ => [d]
  | .ldRM d => [d]
  | .ldABc | .ldADe | .ldANn _ | .ldhAC | .ldhAN _ => [.a]
  | .ldAHli | .ldAHld => [.a, .h, .l]
  | .ldHliA | .ldHldA => [.h, .l]
  | .ldRrNn p _ => pairRegs p
  | .ldHlSpE _ => [.h, .l]
  | .pop .bc => [.b, .c]
  | .pop .de => [.d, .e]
  | .pop .hl => [.h, .l]
  | .pop .af => [.a]
  | .addR _ | .addM | .addN _ | .adcR _ | .adcM | .adcN _ => [.a]
  | .subR _ | .subM | .subN _ | .sbcR _ | .sbcM | .sbcN _ => [.a]
  | .andR _ | .andM | .andN _ | .xorR _ | .xorM | .xorN _ | .orR _ | .orM | .orN _ => [.a]
  | .incR d => [d]
  | .decR d => [d]
  | .daa | .cpl => [.a]
  | .addHlRr _ => [.h, .l]
  | .incRr p => pairRegs p
  | .decRr p => pairRegs p
  | .rlca | .rrca | .rla | .rra => [.a]
  | .rlcR r => [r]
  | .rrcR r => [r]
  | .rlR r => [r]
  | .rrR r => [r]
  | .slaR r => [r]
  | .sraR r => [r]
  | .swapR r => [r]
  | .srlR r => [r]
  | .resR _ r => [r]
  | .setR _ r => [r]
  | _ => []
where
  pairRegs : Pair → List Reg8
    | .bc => [.b, .c]
    | .de => [.d, .e]
    | .hl => [.h, .l]
    | .sp => []

/-- The bits of F an instruction's rule writes: Z 80, N 40, H 20, C 10 (R25 and each rule's "Flags"). -/
def flagsWritten : Instr → Byte
  | .ldHlSpE _ | .addSpE _ | .pop .af => 0xF0
  | .addR _ | .addM | .addN _ | .adcR _ | .adcM | .adcN _ => 0xF0
  | .subR _ | .subM | .subN _ | .sbcR _ | .sbcM | .sbcN _ => 0xF0
  | .andR _ | .andM | .andN _ | .xorR _ | .xorM | .xorN _ | .orR _ | .orM | .orN _ => 0xF0
  | .cpR _ | .cpM | .cpN _ => 0xF0
  | .incR _ | .incM | .decR _ | .decM => 0xE0
  | .daa => 0xB0
  | .cpl => 0x60
  | .scf | .ccf => 0x70
  | .addHlRr _ => 0x70
  | .rlca | .rrca | .rla | .rra => 0xF0
  | .rlcR _ | .rlcM | .rrcR _ | .rrcM | .rlR _ | .rlM | .rrR _ | .rrM => 0xF0
  | .slaR _ | .slaM | .sraR _ | .sraM | .swapR _ | .swapM | .srlR _ | .srlM => 0xF0
  | .bitR _ _ | .bitM _ => 0xE0
  | _ => 0x00

/-- The instructions whose rule moves SP. -/
def movesSp : Instr → Bool
  | .ldRrNn .sp _ | .ldSpHl | .push _ | .pop _ | .incRr .sp | .decRr .sp | .addSpE _ => true
  | .callNn _ | .callCcNn _ _ | .ret | .retCc _ | .reti | .rst _ => true
  | _ => false

/-- The instructions whose rule writes IME or ime_pending. -/
def movesIme : Instr → Bool
  | .di | .ei | .reti => true
  | _ => false

/-! ### Invariants -/

/-- Every memory array is in canonical form, RAM_INIT's arrays too. -/
def State.MemInv (s : State) : Prop :=
  s.memWf = true ∧
  (s.params.ramInit.vram.wf && s.params.ramInit.wram.wf && s.params.ramInit.oam.wf && s.params.ramInit.hram.wf &&
    s.params.ramInit.eram.wf) = true

/-- R24: "flag register's low 4 bits are always 0", in the machine and in the value RESET_F gives. -/
def State.FlagInv (s : State) : Prop := s.cpu.f &&& 0x0F = 0 ∧ s.params.resetValues.cpu.f &&& 0x0F = 0

/-- R38, R373: a transfer of `n` cycles blocks exactly while its countdown runs. -/
def Dma.Inv (n : Nat) (d : Dma) : Prop := d.remaining ≤ n ∧ (d.blocked = true ↔ d.remaining ≠ 0)

/-- R373, in the machine and in its reset values, with DMA_CYCLES above 0. -/
def State.DmaInv (s : State) : Prop :=
  0 < s.params.dmaCycles ∧ s.dma.Inv s.params.dmaCycles ∧ s.params.resetValues.dma.Inv s.params.dmaCycles

/-- R39, R387 to R391: where the PPU is, and the mode that place gives it. -/
def Ppu.Inv (p : Ppu) : Prop :=
  p.lineDot < 456 ∧ p.line < 154 ∧ 172 ≤ p.mode3Len ∧ p.mode3Len ≤ 289 ∧
  (lcdOn p = false → p.line = 0 ∧ p.lineDot = 0 ∧ p.mode = .hblank ∧ p.ly = 0) ∧
  (lcdOn p = true →
    p.mode =
      (if 144 ≤ p.line then PpuMode.vblank
       else if p.lineDot < 80 then .oamScan
       else if p.lineDot < 80 + p.mode3Len then .transfer
       else .hblank) ∧
    p.ly = (if p.line = 153 ∧ 4 ≤ p.lineDot then 0 else BitVec.ofNat 8 p.line))

/-- R450 to R472, R465: no bank register of MBC1, MBC2, MBC3 is ever 0; the sub-second count stays below a second. -/
def Mapper.Inv : Mapper → Prop
  | .noMapper => True
  | .mbc1 m => m.bank1 ≠ 0
  | .mbc2 m => m.romBank ≠ 0
  | .mbc3 m => m.romBank ≠ 0 ∧ m.rtcSub < cyclesPerSecond
  | .mbc5 _ => True

/-- R40, R492, R493: SC bit 7 is set exactly while a transfer is on; the counters stay in their ranges. -/
def Serial.Inv (p : Serial) : Prop :=
  (p.sc7 = p.busy) ∧ p.remaining ≤ 4096 ∧ p.bits < 8 ∧
  (p.busy = true → p.internal = p.sc0) ∧ (p.busy = true → p.internal = true → 0 < p.remaining)

/-- R39: the PPU and its reset values. -/
def State.PpuInv (s : State) : Prop := s.ppu.Inv ∧ s.params.resetValues.ppu.Inv

/-- The bank registers that are "never 0" are not 0 in the reset values (R450, R455, R460). -/
def ResetParams.BankInv (rp : ResetParams) : Prop := rp.mbc1.bank1 ≠ 0 ∧ rp.mbc2.romBank ≠ 0 ∧ rp.mbc3.romBank ≠ 0

/-- Cartridge and serial port, and their reset values. -/
def State.DeviceInv (s : State) : Prop :=
  s.cart.mapper.Inv ∧ s.serial.Inv ∧ s.params.resetValues.BankInv ∧ s.params.resetValues.serial.Inv

/-- R320: "halt_bug ... cannot be 1 here": with the HALT bug pending, IME and ime_pending are 0 and the core runs. -/
def Cpu.HaltBugInv (c : Cpu) : Prop := c.haltBug = true → c.ime = false ∧ c.imePending = false ∧ c.halted = false

/-- R320, in the machine and in its reset values. -/
def State.HaltBugInv (s : State) : Prop := s.cpu.HaltBugInv ∧ s.params.resetValues.cpu.HaltBugInv

/-- All of them. -/
structure State.Inv (s : State) : Prop where
  mem : s.MemInv
  flags : s.FlagInv
  dma : s.DmaInv
  ppu : s.PpuInv
  devices : s.DeviceInv
  haltBug : s.HaltBugInv

end Sys2Proof.Machine
end

