-- ==== Sys2Proof/Certificates/Slice0/Obligations.lean ====
section
/-! DEFINITION. The statements for the provers, from the numbered rules of spec/. Each docstring names the rules; a clause
that rests on a choice of the model's own names the log entry. -/

open Sys2Proof Sys2Proof.Machine

/-! ## Encoding and the step -/

/-- Words written out from the spec's encodings read as the instructions they stand for (30_encoding.md, 40 to 46). -/
def Obligations.DecodeSamples : Prop :=
  Reads [0b01000001] (.ldRR .b .c) ∧ Reads [0b00010110, 0x9C] (.ldRN .d 0x9C) ∧
  Reads [0b00001000, 0x00, 0xC1] (.ldNnSp 0xC100) ∧ Reads [0b11110101] (.push .af) ∧
  Reads [0b10001011] (.adcR .e) ∧ Reads [0b00111001] (.addHlRr .sp) ∧
  Reads [0b11001011, 0b01111111] (.bitR 7 .a) ∧ Reads [0b11001011, 0b11011110] (.setM 3) ∧
  Reads [0b00101000, 0x10] (.jrCcE .z 0x10) ∧ Reads [0b11011100, 0x00, 0x40] (.callCcNn .c 0x4000) ∧
  Reads [0b11101111] (.rst 5) ∧ Reads [0b01110110] .halt ∧ Reads [0b11011101] .illegalDD

/-- Decoding what the encoder writes gives the instruction back, with whatever follows untouched. -/
def Obligations.DecodeOfEncode : Prop :=
  ∀ (i : Instr) (rest : List Byte), i.wellFormed = true → decodeBytes (encode i ++ rest) = .ok (i, rest)

/-- R113, R116: every byte sequence starts a well-formed instruction, which encodes to exactly the bytes it was read from. -/
def Obligations.EncodeOfDecode : Prop :=
  ∀ b0 b1 b2 : Byte,
    (decode b0 b1 b2).wellFormed = true ∧ encode (decode b0 b1 b2) = [b0, b1, b2].take (opcodeLength b0)

/-- R310, R314: a step that is no halted tick and no dispatch runs the instruction at PC, PC moved past its bytes and a
delayed EI applied first, and then advances every block by the count the instruction returned. -/
def Obligations.StepRunsDecodedInstruction : Prop :=
  ∀ (s : State) (i : Instr),
    s.inputs = [] → s.cpu.fault = none → s.cpu.halted = false → s.cpu.haltBug = false →
    (s.cpu.ime = false ∨ s.pending = 0) →
    decode (s.memRead .fetch0 s.cpu.pc) (s.memRead .fetch1 (s.cpu.pc + 1)) (s.memRead .fetch2 (s.cpu.pc + 2)) = i →
    step s =
      match exec i { s with cpu := { s.cpu with
          pc := s.cpu.pc + BitVec.ofNat 16 (encode i).length
          ime := s.cpu.ime || s.cpu.imePending
          imePending := false } } with
      | .next t => .next (t.advance t.cycles)
      | .fault r => .fault r
      | .refused r => .refused r

/-- R326: with the HALT bug pending the opcode byte is read without moving PC, so the operand bytes start at the opcode's
own address, and the bug is consumed. -/
def Obligations.HaltBugRepeatsOpcodeByte : Prop :=
  ∀ (s : State) (i : Instr),
    s.inputs = [] → s.cpu.fault = none → s.cpu.halted = false → s.cpu.haltBug = true →
    (s.cpu.ime = false ∨ s.pending = 0) →
    decode (s.memRead .fetch0 s.cpu.pc) (s.memRead .fetch1 s.cpu.pc) (s.memRead .fetch2 (s.cpu.pc + 1)) = i →
    step s =
      match exec i { s with cpu := { s.cpu with
          pc := s.cpu.pc + BitVec.ofNat 16 ((encode i).length - 1)
          ime := s.cpu.ime || s.cpu.imePending
          imePending := false
          haltBug := false } } with
      | .next t => .next (t.advance t.cycles)
      | .fault r => .fault r
      | .refused r => .refused r

/-- R324: a halted core with nothing pending only lets HALT_TICK_CYCLES pass. R325: a pending interrupt ends the halted
state whatever IME is, at no cost, in the step that dispatches or executes. -/
def Obligations.HaltedTickAndWake : Prop :=
  ∀ s : State, s.inputs = [] → s.cpu.fault = none → s.cpu.halted = true →
    (s.ifReg &&& s.ie.setWidth 5 = 0 →
      step s = .next ({ s with cycles := s.params.haltTickCycles }.advance s.params.haltTickCycles)) ∧
    (s.ifReg &&& s.ie.setWidth 5 ≠ 0 → step s = step { s with cpu := { s.cpu with halted := false } })

/-- R320, with R315's priority, R319's vectors and R321's list of what is saved: the least pending bit is dispatched; only
its request is cleared, PC goes on the stack, and nothing else of the CPU changes. -/
def Obligations.InterruptDispatch : Prop :=
  ∀ (s : State) (i : Nat),
    s.inputs = [] → s.cpu.fault = none → s.cpu.ime = true → i < 5 →
    (s.ifReg &&& s.ie.setWidth 5).getLsbD i = true →
    (∀ j, j < i → (s.ifReg &&& s.ie.setWidth 5).getLsbD j = false) →
    let s1 := { s with ifReg := BitVec.ofNat 5 (s.ifReg.toNat - 2 ^ i) }
    let s2 := (s1.memWrite (s.cpu.sp - 1) (byteOf (s.cpu.pc.toNat / 256))).memWrite (s.cpu.sp - 2) (byteOf s.cpu.pc.toNat)
    step s = .next (State.advance s.params.intDispatchCycles
      { s2 with
        cpu := { s.cpu with
          ime := false, imePending := false, halted := false
          sp := s.cpu.sp - 2, pc := BitVec.ofNat 16 (0x40 + 8 * i) }
        cycles := s.params.intDispatchCycles })

/-- R295, R312: each illegal opcode is one byte long and raises InvalidOpcode with that byte; a standing fault is what
every later step returns. -/
def Obligations.IllegalOpcodesFault : Prop :=
  (∀ p ∈ ([(0xD3, .illegalD3), (0xDB, .illegalDB), (0xDD, .illegalDD), (0xE3, .illegalE3), (0xE4, .illegalE4),
      (0xEB, .illegalEB), (0xEC, .illegalEC), (0xED, .illegalED), (0xF4, .illegalF4), (0xFC, .illegalFC),
      (0xFD, .illegalFD)] : List (Byte × Instr)),
    Reads [p.1] p.2 ∧ ∀ s : State, exec p.2 s = .fault (.invalidOpcode p.1)) ∧
  (∀ (s : State) (op : Byte), s.inputs = [] → s.cpu.fault = some op → step s = .fault (.invalidOpcode op))

/-- R311: the only fault is InvalidOpcode, and only a fetched illegal opcode raises it. -/
def Obligations.OnlyIllegalOpcodesFault : Prop :=
  ∀ (s : State) (r : Fault), s.inputs = [] → s.cpu.fault = none → step s = .fault r →
    ∃ op ∈ ([0xD3, 0xDB, 0xDD, 0xE3, 0xE4, 0xEB, 0xEC, 0xED, 0xF4, 0xFC, 0xFD] : List Byte),
      r = .invalidOpcode op ∧ s.memRead .fetch0 s.cpu.pc = op

/-- R341: a refusal is only STOP with STOP_MODE = refuse; under nop2 no step is refused. -/
def Obligations.RefusalOnlyFromStop : Prop :=
  (∀ (i : Instr) (s : State) (r : Refusal), exec i s = .refused r →
    (∃ n, i = .stop n) ∧ s.params.stopMode = .refuse ∧ r = .stopHasNoMeaning) ∧
  (∀ (s : State) (r : Refusal), s.inputs = [] → s.params.stopMode = .nop2 → step s ≠ .refused r)

/-! ## 8-bit loads -/

/-- R130, R131. -/
def Obligations.LoadRegister : Prop :=
  (∀ (d r : Reg8) (s : State), Reads [byteOf (0x40 + 8 * regNum d + regNum r)] (.ldRR d r) ∧
    ∃ t, exec (.ldRR d r) s = .next t ∧ s.SetTo t d (s.reg r) s.cpu.f 4) ∧
  (∀ (d : Reg8) (n : Byte) (s : State), Reads [byteOf (0x06 + 8 * regNum d), n] (.ldRN d n) ∧
    ∃ t, exec (.ldRN d n) s = .next t ∧ s.SetTo t d n s.cpu.f 8)

/-- R132, R135, R136, R139, R141, R143. -/
def Obligations.LoadFromMemory : Prop :=
  ∀ s : State,
    (∀ d : Reg8, Reads [byteOf (0x46 + 8 * regNum d)] (.ldRM d) ∧
      ∃ t, exec (.ldRM d) s = .next t ∧ s.SetTo t d (s.memRead .dataLo s.hl) s.cpu.f 8) ∧
    (Reads [0x0A] .ldABc ∧ ∃ t, exec .ldABc s = .next t ∧ s.SetTo t .a (s.memRead .dataLo s.bc) s.cpu.f 8) ∧
    (Reads [0x1A] .ldADe ∧ ∃ t, exec .ldADe s = .next t ∧ s.SetTo t .a (s.memRead .dataLo s.de) s.cpu.f 8) ∧
    (∀ nn : Word, Reads [0xFA, byteOf nn.toNat, byteOf (nn.toNat / 256)] (.ldANn nn) ∧
      ∃ t, exec (.ldANn nn) s = .next t ∧ s.SetTo t .a (s.memRead .dataLo nn) s.cpu.f 16) ∧
    (Reads [0xF2] .ldhAC ∧ ∃ t, exec .ldhAC s = .next t ∧
      s.SetTo t .a (s.memRead .dataLo (BitVec.ofNat 16 (0xFF00 + s.cpu.c.toNat))) s.cpu.f 8) ∧
    (∀ n : Byte, Reads [0xF0, n] (.ldhAN n) ∧ ∃ t, exec (.ldhAN n) s = .next t ∧
      s.SetTo t .a (s.memRead .dataLo (BitVec.ofNat 16 (0xFF00 + n.toNat))) s.cpu.f 12)

/-- R133, R134, R137, R138, R140, R142, R144: one store at the address the rule names; the CPU keeps every register. -/
def Obligations.StoreToMemory : Prop :=
  ∀ s : State,
    (∀ r : Reg8, Reads [byteOf (0x70 + regNum r)] (.ldMR r) ∧
      exec (.ldMR r) s = .next { s.memWrite s.hl (s.reg r) with cpu := s.cpu, cycles := 8 }) ∧
    (∀ n : Byte, Reads [0x36, n] (.ldMN n) ∧
      exec (.ldMN n) s = .next { s.memWrite s.hl n with cpu := s.cpu, cycles := 12 }) ∧
    (Reads [0x02] .ldBcA ∧ exec .ldBcA s = .next { s.memWrite s.bc s.cpu.a with cpu := s.cpu, cycles := 8 }) ∧
    (Reads [0x12] .ldDeA ∧ exec .ldDeA s = .next { s.memWrite s.de s.cpu.a with cpu := s.cpu, cycles := 8 }) ∧
    (∀ nn : Word, Reads [0xEA, byteOf nn.toNat, byteOf (nn.toNat / 256)] (.ldNnA nn) ∧
      exec (.ldNnA nn) s = .next { s.memWrite nn s.cpu.a with cpu := s.cpu, cycles := 16 }) ∧
    (Reads [0xE2] .ldhCA ∧ exec .ldhCA s =
      .next { s.memWrite (BitVec.ofNat 16 (0xFF00 + s.cpu.c.toNat)) s.cpu.a with cpu := s.cpu, cycles := 8 }) ∧
    (∀ n : Byte, Reads [0xE0, n] (.ldhNA n) ∧ exec (.ldhNA n) s =
      .next { s.memWrite (BitVec.ofNat 16 (0xFF00 + n.toNat)) s.cpu.a with cpu := s.cpu, cycles := 12 })

/-- R145 to R148: HL moves by one modulo 65536, for the stores even when the write is dropped; no flag. -/
def Obligations.LoadStoreMovingHl : Prop :=
  ∀ s : State,
    let up := BitVec.ofNat 16 (s.hl.toNat + 1)
    let down := BitVec.ofNat 16 (s.hl.toNat + 65535)
    (Reads [0x2A] .ldAHli ∧ exec .ldAHli s = .next { s with
      cpu := { s.cpu with a := s.memRead .dataLo s.hl, h := byteOf (up.toNat / 256), l := byteOf up.toNat }, cycles := 8 }) ∧
    (Reads [0x3A] .ldAHld ∧ exec .ldAHld s = .next { s with
      cpu := { s.cpu with a := s.memRead .dataLo s.hl, h := byteOf (down.toNat / 256), l := byteOf down.toNat }
      cycles := 8 }) ∧
    (Reads [0x22] .ldHliA ∧ exec .ldHliA s = .next { s.memWrite s.hl s.cpu.a with
      cpu := { s.cpu with h := byteOf (up.toNat / 256), l := byteOf up.toNat }, cycles := 8 }) ∧
    (Reads [0x32] .ldHldA ∧ exec .ldHldA s = .next { s.memWrite s.hl s.cpu.a with
      cpu := { s.cpu with h := byteOf (down.toNat / 256), l := byteOf down.toNat }, cycles := 8 })

/-! ## 16-bit loads and the stack -/

/-- R160, R162, R163. -/
def Obligations.LoadPair : Prop :=
  ∀ s : State,
    (∀ (p : Pair) (nn : Word),
      Reads [byteOf (0x01 + 16 * pairNum p), byteOf nn.toNat, byteOf (nn.toNat / 256)] (.ldRrNn p nn) ∧
      ∃ t, exec (.ldRrNn p nn) s = .next t ∧ s.SetPairTo t p nn 12) ∧
    (Reads [0xF9] .ldSpHl ∧ exec .ldSpHl s =
      .next { s with cpu := { s.cpu with sp := BitVec.ofNat 16 (256 * s.cpu.h.toNat + s.cpu.l.toNat) }, cycles := 8 }) ∧
    (∀ e : Byte, Reads [0xF8, e] (.ldHlSpE e) ∧
      let r := BitVec.ofInt 16 (s.cpu.sp.toNat + e.toInt)
      exec (.ldHlSpE e) s = .next { s with
        cpu := { s.cpu with
          h := byteOf (r.toNat / 256), l := byteOf r.toNat
          f := flagsByte false false (s.cpu.sp.toNat % 16 + e.toNat % 16 > 15) (s.cpu.sp.toNat % 256 + e.toNat > 255) }
        cycles := 12 })

/-- R161: the low byte to nn, then the high byte to nn + 1 (modulo 65536). -/
def Obligations.StoreStackPointer : Prop :=
  ∀ (nn : Word) (s : State), Reads [0x08, byteOf nn.toNat, byteOf (nn.toNat / 256)] (.ldNnSp nn) ∧
    exec (.ldNnSp nn) s = .next
      { (s.memWrite nn (byteOf s.cpu.sp.toNat)).memWrite (nn + 1) (byteOf (s.cpu.sp.toNat / 256)) with
        cpu := s.cpu, cycles := 20 }

/-- R164, R165: the high byte to SP-1, then the low byte to SP-2; back in the other order; POP AF drops bits 3:0 of F. -/
def Obligations.PushAndPop : Prop :=
  ∀ s : State,
    (∀ q : StackPair, Reads [byteOf (0xC5 + 16 * stackPairNum q)] (.push q) ∧
      exec (.push q) s = .next
        { (s.memWrite (s.cpu.sp - 1) (byteOf ((s.stackPair q).toNat / 256))).memWrite
            (s.cpu.sp - 2) (byteOf (s.stackPair q).toNat) with
          cpu := { s.cpu with sp := s.cpu.sp - 2 }, cycles := 16 }) ∧
    (∀ q : StackPair, Reads [byteOf (0xC1 + 16 * stackPairNum q)] (.pop q)) ∧
    (let lo := s.memRead .dataLo s.cpu.sp
     let hi := s.memRead .dataHi (s.cpu.sp + 1)
     exec (.pop .bc) s = .next { s with cpu := { s.cpu with b := hi, c := lo, sp := s.cpu.sp + 2 }, cycles := 12 } ∧
     exec (.pop .de) s = .next { s with cpu := { s.cpu with d := hi, e := lo, sp := s.cpu.sp + 2 }, cycles := 12 } ∧
     exec (.pop .hl) s = .next { s with cpu := { s.cpu with h := hi, l := lo, sp := s.cpu.sp + 2 }, cycles := 12 } ∧
     exec (.pop .af) s = .next { s with
       cpu := { s.cpu with a := hi, f := byteOf (16 * (lo.toNat / 16)), sp := s.cpu.sp + 2 }, cycles := 12 })

/-! ## 8-bit arithmetic and logic -/

/-- R181 to R184, in the integers, in the three forms of R180. -/
def Obligations.AddAndSubtract : Prop :=
  AccOp 0 .addR .addM .addN (fun a x _ => byteOf (a + x))
    (fun a x _ => flagsByte ((a + x) % 256 == 0) false (a % 16 + x % 16 > 15) (a + x > 255)) ∧
  AccOp 1 .adcR .adcM .adcN (fun a x c => byteOf (a + x + c))
    (fun a x c => flagsByte ((a + x + c) % 256 == 0) false (a % 16 + x % 16 + c > 15) (a + x + c > 255)) ∧
  AccOp 2 .subR .subM .subN (fun a x _ => byteOf (a + 256 - x))
    (fun a x _ => flagsByte ((a + 256 - x) % 256 == 0) true (a % 16 < x % 16) (a < x)) ∧
  AccOp 3 .sbcR .sbcM .sbcN (fun a x c => byteOf (a + 256 - (x + c)))
    (fun a x c => flagsByte ((a + 256 - (x + c)) % 256 == 0) true (a % 16 < x % 16 + c) (a < x + c))

/-- R185 to R188, in the three forms of R180; CP leaves A. -/
def Obligations.LogicAndCompare : Prop :=
  AccOp 4 .andR .andM .andN (fun a x _ => byteOf (a &&& x)) (fun a x _ => flagsByte (a &&& x == 0) false true false) ∧
  AccOp 5 .xorR .xorM .xorN (fun a x _ => byteOf (a ^^^ x)) (fun a x _ => flagsByte (a ^^^ x == 0) false false false) ∧
  AccOp 6 .orR .orM .orN (fun a x _ => byteOf (a ||| x)) (fun a x _ => flagsByte (a ||| x == 0) false false false) ∧
  AccOp 7 .cpR .cpM .cpN (fun a _ _ => byteOf a)
    (fun a x _ => flagsByte (a == x) true (a % 16 < x % 16) (a < x))

/-- R189 to R192: C unchanged; the memory forms are one read, then one write of the same address. -/
def Obligations.IncrementAndDecrement : Prop :=
  ∀ s : State,
    let c := s.cpu.f.getLsbD 4
    let m := (s.memRead .dataLo s.hl).toNat
    (∀ d : Reg8, Reads [byteOf (0x04 + 8 * regNum d)] (.incR d) ∧
      ∃ t, exec (.incR d) s = .next t ∧
        s.SetTo t d (byteOf ((s.reg d).toNat + 1))
          (flagsByte ((s.reg d).toNat == 255) false ((s.reg d).toNat % 16 == 15) c) 4) ∧
    (Reads [0x34] .incM ∧ exec .incM s = .next { s.memWrite s.hl (byteOf (m + 1)) with
      cpu := { s.cpu with f := flagsByte (m == 255) false (m % 16 == 15) c }, cycles := 12 }) ∧
    (∀ d : Reg8, Reads [byteOf (0x05 + 8 * regNum d)] (.decR d) ∧
      ∃ t, exec (.decR d) s = .next t ∧
        s.SetTo t d (byteOf ((s.reg d).toNat + 255))
          (flagsByte ((s.reg d).toNat == 1) true ((s.reg d).toNat % 16 == 0) c) 4) ∧
    (Reads [0x35] .decM ∧ exec .decM s = .next { s.memWrite s.hl (byteOf (m + 255)) with
      cpu := { s.cpu with f := flagsByte (m == 1) true (m % 16 == 0) c }, cycles := 12 })

/-- R193: the adjustment from the old A and the old flags, applied once. -/
def Obligations.DecimalAdjust : Prop :=
  ∀ s : State, Reads [0x27] .daa ∧
    let a := s.cpu.a.toNat
    let n := s.cpu.f.getLsbD 6
    let h := s.cpu.f.getLsbD 5
    let c := s.cpu.f.getLsbD 4
    let low := if h || (!n && decide (a % 16 > 9)) then 6 else 0
    let high := if c || (!n && decide (a > 0x99)) then 0x60 else 0
    let r := if n then a + 256 - (low + high) else a + (low + high)
    exec .daa s = .next { s with
      cpu := { s.cpu with a := byteOf r, f := flagsByte (r % 256 == 0) n false (high == 0x60) }, cycles := 4 }

/-- R194 to R196. -/
def Obligations.ComplementAndCarryFlag : Prop :=
  ∀ s : State,
    let z := s.cpu.f.getLsbD 7
    let c := s.cpu.f.getLsbD 4
    (Reads [0x2F] .cpl ∧ exec .cpl s = .next { s with
      cpu := { s.cpu with a := byteOf (255 - s.cpu.a.toNat), f := flagsByte z true true c }, cycles := 4 }) ∧
    (Reads [0x37] .scf ∧ exec .scf s = .next { s with
      cpu := { s.cpu with f := flagsByte z false false true }, cycles := 4 }) ∧
    (Reads [0x3F] .ccf ∧ exec .ccf s = .next { s with
      cpu := { s.cpu with f := flagsByte z false false !c }, cycles := 4 })

/-! ## 16-bit arithmetic -/

/-- R220 to R223. -/
def Obligations.Arithmetic16 : Prop :=
  ∀ s : State,
    (∀ p : Pair, Reads [byteOf (0x09 + 16 * pairNum p)] (.addHlRr p) ∧
      let r := s.hl.toNat + (s.pair p).toNat
      exec (.addHlRr p) s = .next { s with
        cpu := { s.cpu with
          h := byteOf (r / 256), l := byteOf r
          f := flagsByte (s.cpu.f.getLsbD 7) false (s.hl.toNat % 4096 + (s.pair p).toNat % 4096 > 4095) (r > 65535) }
        cycles := 8 }) ∧
    (∀ p : Pair, Reads [byteOf (0x03 + 16 * pairNum p)] (.incRr p) ∧
      ∃ t, exec (.incRr p) s = .next t ∧ s.SetPairTo t p (BitVec.ofNat 16 ((s.pair p).toNat + 1)) 8) ∧
    (∀ p : Pair, Reads [byteOf (0x0B + 16 * pairNum p)] (.decRr p) ∧
      ∃ t, exec (.decRr p) s = .next t ∧ s.SetPairTo t p (BitVec.ofNat 16 ((s.pair p).toNat + 65535)) 8) ∧
    (∀ e : Byte, Reads [0xE8, e] (.addSpE e) ∧
      exec (.addSpE e) s = .next { s with
        cpu := { s.cpu with
          sp := BitVec.ofInt 16 (s.cpu.sp.toNat + e.toInt)
          f := flagsByte false false (s.cpu.sp.toNat % 16 + e.toNat % 16 > 15) (s.cpu.sp.toNat % 256 + e.toNat > 255) }
        cycles := 16 })

/-! ## Rotates, shifts, bits -/

/-- R230 to R233: Z = 0 always. -/
def Obligations.AccumulatorRotates : Prop :=
  ∀ s : State,
    let a := s.cpu.a.toNat
    let c := bit (s.cpu.f.getLsbD 4)
    (Reads [0x07] .rlca ∧ exec .rlca s = .next { s with
      cpu := { s.cpu with a := byteOf (2 * a + a / 128), f := flagsByte false false false (a / 128 == 1) }, cycles := 4 }) ∧
    (Reads [0x0F] .rrca ∧ exec .rrca s = .next { s with
      cpu := { s.cpu with a := byteOf (a / 2 + 128 * (a % 2)), f := flagsByte false false false (a % 2 == 1) }
      cycles := 4 }) ∧
    (Reads [0x17] .rla ∧ exec .rla s = .next { s with
      cpu := { s.cpu with a := byteOf (2 * a + c), f := flagsByte false false false (a / 128 == 1) }, cycles := 4 }) ∧
    (Reads [0x1F] .rra ∧ exec .rra s = .next { s with
      cpu := { s.cpu with a := byteOf (a / 2 + 128 * c), f := flagsByte false false false (a % 2 == 1) }, cycles := 4 })

/-- R235 to R242, in the two forms of R234. -/
def Obligations.RotatesAndShifts : Prop :=
  CbOp 0 .rlcR .rlcM (fun v _ => 2 * v + v / 128) (fun v => v / 128 == 1) ∧
  CbOp 1 .rrcR .rrcM (fun v _ => v / 2 + 128 * (v % 2)) (fun v => v % 2 == 1) ∧
  CbOp 2 .rlR .rlM (fun v c => 2 * v + c) (fun v => v / 128 == 1) ∧
  CbOp 3 .rrR .rrM (fun v c => v / 2 + 128 * c) (fun v => v % 2 == 1) ∧
  CbOp 4 .slaR .slaM (fun v _ => 2 * v) (fun v => v / 128 == 1) ∧
  CbOp 5 .sraR .sraM (fun v _ => v / 2 + 128 * (v / 128)) (fun v => v % 2 == 1) ∧
  CbOp 6 .swapR .swapM (fun v _ => 16 * (v % 16) + v / 16) (fun _ => false) ∧
  CbOp 7 .srlR .srlM (fun v _ => v / 2) (fun v => v % 2 == 1)

/-- R243 to R245. -/
def Obligations.BitOperations : Prop :=
  ∀ (b : BitVec 3) (s : State),
    let n := b.toNat
    let c := s.cpu.f.getLsbD 4
    let m := (s.memRead .dataLo s.hl).toNat
    (∀ r : Reg8, Reads [0xCB, byteOf (0x40 + 8 * n + regNum r)] (.bitR b r) ∧
      exec (.bitR b r) s = .next { s with
        cpu := { s.cpu with f := flagsByte ((s.reg r).toNat / 2 ^ n % 2 == 0) false true c }, cycles := 8 }) ∧
    (Reads [0xCB, byteOf (0x46 + 8 * n)] (.bitM b) ∧
      exec (.bitM b) s = .next { s with
        cpu := { s.cpu with f := flagsByte (m / 2 ^ n % 2 == 0) false true c }, cycles := 12 }) ∧
    (∀ r : Reg8, Reads [0xCB, byteOf (0x80 + 8 * n + regNum r)] (.resR b r) ∧
      ∃ t, exec (.resR b r) s = .next t ∧
        s.SetTo t r (byteOf ((s.reg r).toNat - 2 ^ n * ((s.reg r).toNat / 2 ^ n % 2))) s.cpu.f 8) ∧
    (Reads [0xCB, byteOf (0x86 + 8 * n)] (.resM b) ∧
      exec (.resM b) s = .next { s.memWrite s.hl (byteOf (m - 2 ^ n * (m / 2 ^ n % 2))) with
        cpu := s.cpu, cycles := 16 }) ∧
    (∀ r : Reg8, Reads [0xCB, byteOf (0xC0 + 8 * n + regNum r)] (.setR b r) ∧
      ∃ t, exec (.setR b r) s = .next t ∧
        s.SetTo t r (byteOf ((s.reg r).toNat + 2 ^ n * (1 - (s.reg r).toNat / 2 ^ n % 2))) s.cpu.f 8) ∧
    (Reads [0xCB, byteOf (0xC6 + 8 * n)] (.setM b) ∧
      exec (.setM b) s = .next { s.memWrite s.hl (byteOf (m + 2 ^ n * (1 - m / 2 ^ n % 2))) with
        cpu := s.cpu, cycles := 16 })

/-- R104, R111: the row `PREFIX_CB` runs what its second byte selects, and always completes. -/
def Obligations.ExtendedSetByPrefix : Prop :=
  ∀ (op2 : Byte) (s : State),
    exec (.prefixCb op2) s = exec (decodeCb op2) s ∧ ∃ t, exec (.prefixCb op2) s = .next t

/-! ## Control transfer -/

/-- R261 to R265. -/
def Obligations.Jumps : Prop :=
  ∀ s : State,
    (∀ nn : Word, Reads [0xC3, byteOf nn.toNat, byteOf (nn.toNat / 256)] (.jpNn nn) ∧
      exec (.jpNn nn) s = .next { s with cpu := { s.cpu with pc := nn }, cycles := 16 }) ∧
    (∀ (cc : Cond) (nn : Word),
      Reads [byteOf (0xC2 + 8 * condNum cc), byteOf nn.toNat, byteOf (nn.toNat / 256)] (.jpCcNn cc nn) ∧
      exec (.jpCcNn cc nn) s = .next
        (if condHolds cc s.cpu.f then { s with cpu := { s.cpu with pc := nn }, cycles := 16 }
         else { s with cycles := 12 })) ∧
    (Reads [0xE9] .jpHl ∧ exec .jpHl s = .next { s with
      cpu := { s.cpu with pc := BitVec.ofNat 16 (256 * s.cpu.h.toNat + s.cpu.l.toNat) }, cycles := 4 }) ∧
    (∀ e : Byte, Reads [0x18, e] (.jrE e) ∧
      exec (.jrE e) s = .next { s with
        cpu := { s.cpu with pc := BitVec.ofInt 16 (s.cpu.pc.toNat + e.toInt) }, cycles := 12 }) ∧
    (∀ (cc : Cond) (e : Byte), Reads [byteOf (0x20 + 8 * condNum cc), e] (.jrCcE cc e) ∧
      exec (.jrCcE cc e) s = .next
        (if condHolds cc s.cpu.f then
          { s with cpu := { s.cpu with pc := BitVec.ofInt 16 (s.cpu.pc.toNat + e.toInt) }, cycles := 12 }
         else { s with cycles := 8 }))

/-- R266, R267, R271: the return address on the stack, high byte at SP-1, low byte at SP-2. -/
def Obligations.Calls : Prop :=
  ∀ s : State,
    let pushed := (s.memWrite (s.cpu.sp - 1) (byteOf (s.cpu.pc.toNat / 256))).memWrite (s.cpu.sp - 2) (byteOf s.cpu.pc.toNat)
    (∀ nn : Word, Reads [0xCD, byteOf nn.toNat, byteOf (nn.toNat / 256)] (.callNn nn) ∧
      exec (.callNn nn) s = .next { pushed with cpu := { s.cpu with sp := s.cpu.sp - 2, pc := nn }, cycles := 24 }) ∧
    (∀ (cc : Cond) (nn : Word),
      Reads [byteOf (0xC4 + 8 * condNum cc), byteOf nn.toNat, byteOf (nn.toNat / 256)] (.callCcNn cc nn) ∧
      exec (.callCcNn cc nn) s = .next
        (if condHolds cc s.cpu.f then
          { pushed with cpu := { s.cpu with sp := s.cpu.sp - 2, pc := nn }, cycles := 24 }
         else { s with cycles := 12 })) ∧
    (∀ t : BitVec 3, Reads [byteOf (0xC7 + 8 * t.toNat)] (.rst t) ∧
      exec (.rst t) s = .next { pushed with
        cpu := { s.cpu with sp := s.cpu.sp - 2, pc := BitVec.ofNat 16 (8 * t.toNat) }, cycles := 16 })

/-- R268 to R270: PC from the two bytes at SP, low byte first; RETI enables interrupts at once. -/
def Obligations.Returns : Prop :=
  ∀ s : State,
    let target := BitVec.ofNat 16
      (256 * (s.memRead .dataHi (s.cpu.sp + 1)).toNat + (s.memRead .dataLo s.cpu.sp).toNat)
    (Reads [0xC9] .ret ∧ exec .ret s = .next { s with
      cpu := { s.cpu with sp := s.cpu.sp + 2, pc := target }, cycles := 16 }) ∧
    (∀ cc : Cond, Reads [byteOf (0xC0 + 8 * condNum cc)] (.retCc cc) ∧
      exec (.retCc cc) s = .next
        (if condHolds cc s.cpu.f then { s with cpu := { s.cpu with sp := s.cpu.sp + 2, pc := target }, cycles := 20 }
         else { s with cycles := 8 })) ∧
    (Reads [0xD9] .reti ∧ exec .reti s = .next { s with
      cpu := { s.cpu with sp := s.cpu.sp + 2, pc := target, ime := true, imePending := false }, cycles := 16 })

/-! ## NOP, HALT, STOP, DI, EI -/

/-- R290 to R294. HALT's 4 cycles and the delay of EI are the spec's decisions D9 and D7. STOP under its two STOP_MODE
values; which of them a machine has is log entry 6. -/
def Obligations.SystemInstructions : Prop :=
  ∀ s : State,
    (Reads [0x00] .nop ∧ exec .nop s = .next { s with cycles := 4 }) ∧
    (Reads [0x76] .halt ∧ exec .halt s = .next
      (if s.cpu.ime = false ∧ s.ifReg &&& s.ie.setWidth 5 ≠ 0 then
        { s with cpu := { s.cpu with haltBug := true }, cycles := 4 }
       else { s with cpu := { s.cpu with halted := true }, cycles := 4 })) ∧
    (∀ n : Byte, Reads [0x10, n] (.stop n) ∧
      (s.params.stopMode = .nop2 → exec (.stop n) s = .next { s with cycles := 4 }) ∧
      (s.params.stopMode = .refuse → exec (.stop n) s = .refused .stopHasNoMeaning)) ∧
    (Reads [0xF3] .di ∧ exec .di s = .next { s with
      cpu := { s.cpu with ime := false, imePending := false }, cycles := 4 }) ∧
    (Reads [0xFB] .ei ∧ exec .ei s = .next
      (if s.params.eiDelay then { s with cpu := { s.cpu with imePending := true }, cycles := 4 }
       else { s with cpu := { s.cpu with ime := true }, cycles := 4 }))

/-! ## Frames over every instruction -/

/-- R81, R321's style for instructions: outside the CPU an instruction changes nothing but by the stores its rule names. -/
def Obligations.OnlyNamedStoresChangeBlocks : Prop :=
  ∀ (i : Instr) (s t : State), exec i s = .next t →
    t = { s.storeAll (storesOf (resolved i) s) with cpu := t.cpu, cycles := t.cycles }

/-- Every byte of memory reads as before, but where a store of the instruction reaches it. -/
def Obligations.MemoryFrame : Prop :=
  ∀ (i : Instr) (s t : State), exec i s = .next t →
    ∀ x : Word, State.outOfReach x s (storesOf (resolved i) s) = true →
      ∀ k : Access, t.memRead k x = s.memRead k x

/-- Every register, flag, SP and the CPU's control bits are unchanged but where the instruction's rule writes them. -/
def Obligations.RegisterFrame : Prop :=
  ∀ (i : Instr) (s t : State), exec i s = .next t →
    (∀ r, r ∉ destRegs (resolved i) → t.reg r = s.reg r) ∧
    t.cpu.f &&& (0xF0 &&& ~~~flagsWritten (resolved i)) = s.cpu.f &&& (0xF0 &&& ~~~flagsWritten (resolved i)) ∧
    (flagsWritten (resolved i) = 0 → t.cpu.f = s.cpu.f) ∧
    (movesSp (resolved i) = false → t.cpu.sp = s.cpu.sp) ∧
    (movesIme (resolved i) = false → t.cpu.ime = s.cpu.ime ∧ t.cpu.imePending = s.cpu.imePending) ∧
    (i ≠ .halt → t.cpu.halted = s.cpu.halted ∧ t.cpu.haltBug = s.cpu.haltBug) ∧
    t.cpu.fault = s.cpu.fault

/-! ## Memory -/

/-- A byte stored to RAM that is not blocked reads back at every address that shows the same byte, the repeats of a small
external RAM (R444) among them; of a 4-bit cell of an MBC2 (R457) the low nibble does, under 1 bits. Canonical memory is the
model's own representation (log entry 17). -/
def Obligations.StoredByteReadsBack : Prop :=
  ∀ (s : State) (a : Word) (v : Byte), s.MemInv → s.isBlocked a = false →
    ∀ (k : Access) (x : Word), s.sameByte a x = true →
      (s.isPlainRam a = true → (s.memWrite a v).memRead k x = v) ∧
      (s.isMbc2Cell a = true → (s.memWrite a v).memRead k x = byteOf (240 + v.toNat % 16))

/-- R68: E000 + k is the same byte as C000 + k, for reads and writes both. R70: FEA0 to FEFF reads 0xFF, and a write is
dropped. -/
def Obligations.MirrorAndUnowned : Prop :=
  ∀ (s : State) (k : Nat),
    (k < 0x1E00 →
      (∀ acc, s.memRead acc (BitVec.ofNat 16 (0xE000 + k)) = s.memRead acc (BitVec.ofNat 16 (0xC000 + k))) ∧
      (∀ v, s.memWrite (BitVec.ofNat 16 (0xE000 + k)) v = s.memWrite (BitVec.ofNat 16 (0xC000 + k)) v)) ∧
    (k < 0x60 →
      (∀ acc, s.memRead acc (BitVec.ofNat 16 (0xFEA0 + k)) = 0xFF) ∧
      (∀ v, s.memWrite (BitVec.ofNat 16 (0xFEA0 + k)) v = s))

/-- R73, R374: while a transfer blocks, everything outside FF80 to FFFE reads 0xFF and drops writes; high RAM is never
blocked. -/
def Obligations.DmaLeavesOnlyHighRam : Prop :=
  ∀ (s : State) (a : Word),
    (s.dma.blocked = true → ¬ (0xFF80 ≤ a.toNat ∧ a.toNat ≤ 0xFFFE) →
      (∀ k, s.memRead k a = 0xFF) ∧ ∀ v, s.memWrite a v = s) ∧
    (0xFF80 ≤ a.toNat → a.toNat ≤ 0xFFFE →
      (∀ k, s.memRead k a = s.hram.read (a.toNat - 0xFF80)) ∧
      ∀ v, s.memWrite a v = { s with hram := s.hram.write (a.toNat - 0xFF80) v })

/-- R76: when the PPU keeps the CPU out of VRAM and OAM, and that with the LCD off it does not. -/
def Obligations.PpuModeBlocking : Prop :=
  ∀ (s : State) (a : Word), s.dma.blocked = false →
    let on := s.ppu.lcdc.getLsbD 7
    (0x8000 ≤ a.toNat → a.toNat ≤ 0x9FFF →
      if on = true ∧ (s.ppu.mode = .transfer ∨ (s.ppu.mode = .oamScan ∧ s.params.vramBlockedMode2 = true)) then
        (∀ k, s.memRead k a = 0xFF) ∧ ∀ v, s.memWrite a v = s
      else
        (∀ k, s.memRead k a = s.vram.read (a.toNat - 0x8000)) ∧
        ∀ v, s.memWrite a v = { s with vram := s.vram.write (a.toNat - 0x8000) v }) ∧
    (0xFE00 ≤ a.toNat → a.toNat ≤ 0xFE9F →
      if on = true ∧ (s.ppu.mode = .transfer ∨ s.ppu.mode = .oamScan) then
        (∀ k, s.memRead k a = 0xFF) ∧ ∀ v, s.memWrite a v = s
      else
        (∀ k, s.memRead k a = s.oam.read (a.toNat - 0xFE00)) ∧
        ∀ v, s.memWrite a v = { s with oam := s.oam.write (a.toNat - 0xFE00) v })

/-! ## Cartridge -/

/-- R440, R478 (2): no step changes ROM, nor what the header fixed, nor the parameters. -/
def Obligations.RomNeverChanges : Prop :=
  ∀ s t : State, step s = .next t →
    t.cart.rom = s.cart.rom ∧ t.cart.config = s.cart.config ∧ t.params = s.params

/-- R445 (NoMapper, its ROM half), R451, R452 (MBC1), R472, R473, R475 (MBC5, without and with a rumble motor): everything
a write to 0000 to 7FFF changes, and what the ROM window then shows. -/
def Obligations.Mbc1AndMbc5Banks : Prop :=
  ∀ (s : State) (a : Word) (v : Byte), s.dma.blocked = false → a.toNat < 0x8000 →
    let selected := fun m' : Mapper => { s with cart := { s.cart with mapper := m' } }
    (s.cart.mapper = .noMapper → s.memWrite a v = s ∧ ∀ k, s.memRead k a = s.cart.rom.read a.toNat) ∧
    (∀ m, s.cart.mapper = .mbc1 m →
      s.memWrite a v = selected (.mbc1
        (if a.toNat < 0x2000 then { m with ramEnable := v.toNat % 16 == 10 }
         else if a.toNat < 0x4000 then { m with bank1 := BitVec.ofNat 5 (if v.toNat % 32 = 0 then 1 else v.toNat % 32) }
         else if a.toNat < 0x6000 then { m with bank2 := BitVec.ofNat 2 (v.toNat % 4) }
         else { m with mode := v.toNat % 2 == 1 })) ∧
      ∀ k, s.memRead k a =
        (if a.toNat < 0x4000 then
          s.cart.rom.read ((if m.mode then 32 * m.bank2.toNat else 0) % s.cart.config.romBanks * 0x4000 + a.toNat)
         else
          s.cart.rom.read
            ((32 * m.bank2.toNat + m.bank1.toNat) % s.cart.config.romBanks * 0x4000 + (a.toNat - 0x4000)))) ∧
    (∀ m, s.cart.mapper = .mbc5 m →
      s.memWrite a v = selected (.mbc5
        (if a.toNat < 0x2000 then { m with ramEnable := v.toNat % 16 == 10 }
         else if a.toNat < 0x3000 then { m with romBank := BitVec.ofNat 9 (m.romBank.toNat / 256 * 256 + v.toNat) }
         else if a.toNat < 0x4000 then { m with romBank := BitVec.ofNat 9 (v.toNat % 2 * 256 + m.romBank.toNat % 256) }
         else if a.toNat < 0x6000 then
          { m with ramBank := BitVec.ofNat 4 (if s.cart.config.rumble then v.toNat % 8 else v.toNat % 16) }
         else m)) ∧
      ∀ k, s.memRead k a =
        (if a.toNat < 0x4000 then s.cart.rom.read a.toNat
         else s.cart.rom.read (m.romBank.toNat % s.cart.config.romBanks * 0x4000 + (a.toNat - 0x4000))))

/-- R455, R456 (MBC2), R461, R462 (MBC3): everything a write to 0000 to 7FFF changes, and what the ROM window shows. -/
def Obligations.Mbc2AndMbc3Banks : Prop :=
  ∀ (s : State) (a : Word) (v : Byte), s.dma.blocked = false → a.toNat < 0x8000 →
    let selected := fun m' : Mapper => { s with cart := { s.cart with mapper := m' } }
    (∀ m, s.cart.mapper = .mbc2 m →
      s.memWrite a v = selected (.mbc2
        (if a.toNat < 0x4000 then
          if a.toNat / 256 % 2 = 0 then { m with ramEnable := v.toNat % 16 == 10 }
          else { m with romBank := BitVec.ofNat 4 (if v.toNat % 16 = 0 then 1 else v.toNat % 16) }
         else m)) ∧
      ∀ k, s.memRead k a =
        (if a.toNat < 0x4000 then s.cart.rom.read a.toNat
         else s.cart.rom.read (m.romBank.toNat % s.cart.config.romBanks * 0x4000 + (a.toNat - 0x4000)))) ∧
    (∀ m, s.cart.mapper = .mbc3 m →
      s.memWrite a v = selected (.mbc3
        (if a.toNat < 0x2000 then { m with ramEnable := v.toNat % 16 == 10 }
         else if a.toNat < 0x4000 then { m with romBank := BitVec.ofNat 7 (if v.toNat % 128 = 0 then 1 else v.toNat % 128) }
         else if a.toNat < 0x6000 then { m with ramSel := BitVec.ofNat 4 (v.toNat % 16) }
         else if m.latchPrev = false ∧ v.toNat % 2 = 1 then { m with latched := m.live, latchPrev := true }
         else { m with latchPrev := v.toNat % 2 == 1 })) ∧
      ∀ k, s.memRead k a =
        (if a.toNat < 0x4000 then s.cart.rom.read a.toNat
         else s.cart.rom.read (m.romBank.toNat % s.cart.config.romBanks * 0x4000 + (a.toNat - 0x4000))))

/-- R444, R445, R453, R457, R463, R474: what the bank registers select in A000 to BFFF; closed, it reads 0xFF and drops
writes. (The MBC3 clock behind the window is `ClockRegisters`.) -/
def Obligations.CartridgeRamWindow : Prop :=
  ∀ (s : State) (a : Word) (v : Byte), s.dma.blocked = false → 0xA000 ≤ a.toNat → a.toNat ≤ 0xBFFF →
    let closed := (∀ k, s.memRead k a = 0xFF) ∧ s.memWrite a v = s
    let bank := fun b : Nat =>
      if s.cart.config.ramSize = 0 then closed
      else
        let i := (b * 0x2000 + (a.toNat - 0xA000)) % s.cart.config.ramSize
        (∀ k, s.memRead k a = s.cart.eram.read i) ∧
        s.memWrite a v = { s with cart := { s.cart with eram := s.cart.eram.write i v } }
    (s.cart.mapper = .noMapper → bank 0) ∧
    (∀ m, s.cart.mapper = .mbc1 m → if m.ramEnable then bank (if m.mode then m.bank2.toNat else 0) else closed) ∧
    (∀ m, s.cart.mapper = .mbc2 m →
      if m.ramEnable then
        (∀ k, s.memRead k a = byteOf (240 + (s.cart.eram.read (a.toNat % 512)).toNat % 16)) ∧
        s.memWrite a v =
          { s with cart := { s.cart with eram := s.cart.eram.write (a.toNat % 512) (byteOf (v.toNat % 16)) } }
      else closed) ∧
    (∀ m, s.cart.mapper = .mbc3 m →
      (m.ramEnable = true → m.ramSel.toNat ≤ 3 → bank m.ramSel.toNat) ∧
      (m.ramEnable = true → ¬ m.ramSel.toNat ≤ 3 →
        (s.cart.config.hasClock = false ∨ m.ramSel.toNat < 8 ∨ 12 < m.ramSel.toNat) → closed) ∧
      (m.ramEnable = false → closed)) ∧
    (∀ m, s.cart.mapper = .mbc5 m → if m.ramEnable then bank m.ramBank.toNat else closed)

/-- R463, R465, R466, R467: with the clock selected, every address of A000 to BFFF reads the latched register; a write stores
the register's bits in the live one, and a write to S clears `rtc_sub`. Nothing else changes. -/
def Obligations.ClockRegisters : Prop :=
  ∀ (s : State) (m : Mbc3) (a : Word) (v : Byte), s.dma.blocked = false → 0xA000 ≤ a.toNat → a.toNat ≤ 0xBFFF →
    s.cart.mapper = .mbc3 m → s.cart.config.hasClock = true → m.ramEnable = true →
    let reads := fun n : Nat => ∀ k, s.memRead k a = byteOf n
    let leaves := fun m' : Mbc3 => s.memWrite a v = { s with cart := { s.cart with mapper := .mbc3 m' } }
    (m.ramSel = 8 → reads m.latched.s.toNat ∧
      leaves { m with live := { m.live with s := BitVec.ofNat 6 (v.toNat % 64) }, rtcSub := 0 }) ∧
    (m.ramSel = 9 → reads m.latched.m.toNat ∧
      leaves { m with live := { m.live with m := BitVec.ofNat 6 (v.toNat % 64) } }) ∧
    (m.ramSel = 10 → reads m.latched.h.toNat ∧
      leaves { m with live := { m.live with h := BitVec.ofNat 5 (v.toNat % 32) } }) ∧
    (m.ramSel = 11 → reads m.latched.dl.toNat ∧ leaves { m with live := { m.live with dl := v } }) ∧
    (m.ramSel = 12 →
      reads (128 * bit m.latched.carry + 64 * bit m.latched.halt + bit m.latched.day8) ∧
      leaves { m with live := { m.live with
        day8 := v.toNat % 2 == 1, halt := v.toNat / 64 % 2 == 1, carry := v.toNat / 128 == 1 } })

/-- R468: a clock in its ordinary range counts seconds modulo 512 days; 4194304 cycles are one second, and fewer only
fill `rtc_sub`. -/
def Obligations.ClockCountsSeconds : Prop :=
  ∀ (m : Mbc3) (n : Nat), m.rtcSub < 4194304 → m.live.s.toNat < 60 → m.live.m.toNat < 60 → m.live.h.toNat < 24 →
    let days := fun r : Rtc => 256 * bit r.day8 + r.dl.toNat
    let total := fun r : Rtc => ((days r * 24 + r.h.toNat) * 60 + r.m.toNat) * 60 + r.s.toNat
    (clockCycles n m).rtcSub = (m.rtcSub + n) % 4194304 ∧
    total (clockCycles n m).live = (total m.live + (m.rtcSub + n) / 4194304) % (512 * 86400)

/-! ## Timer -/

/-- R356, R357: in any run of `2^(sel+1)` cycles with the timer enabled TIMA ticks exactly once, whatever the counter's
start; an overflow reloads TMA and makes the request. -/
def Obligations.OneTickPerPeriod : Prop :=
  ∀ (t : Timer) (sel period : Nat),
    (sel, period) ∈ ([(0, 1024), (1, 16), (2, 64), (3, 256)] : List (Nat × Nat)) →
    t.tac = BitVec.ofNat 3 (4 + sel) →
    timerRun period (t, false) =
      (if t.tima = 0xFF then ({ t with div := t.div + BitVec.ofNat 16 period, tima := t.tma }, true)
       else ({ t with div := t.div + BitVec.ofNat 16 period, tima := t.tima + 1 }, false))

/-- R354: a write to DIV clears all 16 bits and, with the timer enabled and the selected bit 1, ticks TIMA. -/
def Obligations.DivWriteGlitch : Prop :=
  ∀ (s : State) (v : Byte), s.dma.blocked = false →
    let bitNo := ([9, 3, 5, 7] : List Nat).getD (s.timer.tac.toNat % 4) 0
    let ticks := decide (4 ≤ s.timer.tac.toNat) && s.timer.div.getLsbD bitNo
    s.memWrite 0xFF04 v =
      { s with
        timer := { s.timer with
          div := 0
          tima :=
            if ticks = true then (if s.timer.tima = 0xFF then s.timer.tma else s.timer.tima + 1) else s.timer.tima }
        ifReg := if ticks = true ∧ s.timer.tima = 0xFF then s.ifReg ||| 4 else s.ifReg }

/-! ## OAM DMA -/

/-- R371, R372: a write of FF46 copies the 160 bytes of the page through the decoder and starts the countdown; nothing
else changes. Canonical memory is the model's own representation (log entry 17). -/
def Obligations.DmaTrigger : Prop :=
  ∀ (s : State) (v : Byte), s.dma.blocked = false → s.MemInv →
    let t := s.memWrite 0xFF46 v
    t = { s with oam := t.oam, dma := { page := v, remaining := s.params.dmaCycles, blocked := true } } ∧
    (∀ k, k < 160 →
      t.oam.read k = { s with dma := { s.dma with page := v } }.rawRead .dma (BitVec.ofNat 16 (256 * v.toNat + k))) ∧
    (∀ k, 160 ≤ k → t.oam.read k = s.oam.read k)

/-! ## PPU -/

/-- R398, R399: what a write of FF40 does when it turns the LCD off, turns it on, or does neither. -/
def Obligations.LcdOffAndOn : Prop :=
  ∀ (s : State) (v : Byte), s.dma.blocked = false →
    (s.memWrite 0xFF40 v) = { s with ppu := (s.memWrite 0xFF40 v).ppu } ∧
    let p := s.ppu
    let q := (s.memWrite 0xFF40 v).ppu
    (p.lcdc.getLsbD 7 = true → v.getLsbD 7 = false →
      q = { p with
        lcdc := v, ly := 0, line := 0, lineDot := 0, mode := .hblank, windowLine := 0, wyLatch := false
        statLine := false, lycPulse := false, frameComplete := true
        frame := Vector.replicate 144 (Vector.replicate 160 0)
        lineBuffer := Vector.replicate 160 { index := 0, sprite := false, priority := false, palette := .bgp } }) ∧
    (p.lcdc.getLsbD 7 = false → v.getLsbD 7 = true →
      q = { p with
        lcdc := v, ly := 0, line := 0, lineDot := 0, mode := .oamScan, windowLine := 0
        wyLatch := decide (p.wy = 0), lycPulse := decide (p.lyc = 0), statLine := false }) ∧
    (p.lcdc.getLsbD 7 = v.getLsbD 7 → q = { p with lcdc := v })

/-- R387, R394, R397: every dot moves the place in the frame on by one modulo 70224, and V-Blank is requested, and the
frame marked complete, exactly at the dot that begins line 144. -/
def Obligations.PpuPlaceAndVBlank : Prop :=
  ∀ (pr : Params) (vram oam : Memory) (p : Ppu), p.Inv → lcdOn p = true →
    let r := ppuDot pr vram oam p
    456 * r.1.line + r.1.lineDot = (456 * p.line + p.lineDot + 1) % 70224 ∧
    (r.2.getLsbD 0 = true ↔ 456 * r.1.line + r.1.lineDot = 456 * 144) ∧
    (r.1.frameComplete = true ↔ p.frameComplete = true ∨ r.2.getLsbD 0 = true)

/-- R400, R402: LCD-STAT is requested exactly when the combined line rises, and LY = LYC drives the line only in the dot
in which LY becomes LYC (or in the first dot after LCD on). -/
def Obligations.StatLineEdges : Prop :=
  ∀ (pr : Params) (vram oam : Memory) (p : Ppu), p.Inv → lcdOn p = true →
    let r := ppuDot pr vram oam p
    (r.2.getLsbD 1 = true ↔ p.statLine = false ∧ r.1.statLine = true) ∧
    (r.1.statLine = true ↔
      (p.statEn.getLsbD 0 = true ∧ r.1.mode = .hblank) ∨ (p.statEn.getLsbD 1 = true ∧ r.1.mode = .vblank) ∨
      (p.statEn.getLsbD 2 = true ∧ r.1.mode = .oamScan) ∨
      (p.statEn.getLsbD 3 = true ∧
        ((r.1.ly ≠ p.ly ∧ r.1.ly = p.lyc) ∨ (r.1.ly = p.ly ∧ p.lycPulse = true)))) ∧
    r.1.lycPulse = false

/-! ## Serial port and joypad -/

/-- R496: with a device that echoes its input an internally clocked transfer takes 4096 cycles, requests Serial once, at
its end, and leaves SB as it was. -/
def Obligations.SerialLoopback : Prop :=
  ∀ (s : State) (n : Nat), s.dma.blocked = false → s.serial.device = echoDevice →
    let t := s.memWrite 0xFF02 0x81
    (n < 4096 →
      t.serialAdvance n = { t with serial := { t.serial with remaining := 4096 - n } } ∧ t.serial.sc7 = true) ∧
    (4096 ≤ n →
      t.serialAdvance n = { t with
        serial := { t.serial with sb := s.serial.sb, sc7 := false, busy := false, remaining := 0 }
        ifReg := s.ifReg ||| 8 })

/-- R501: releasing requests nothing; pressing a button of an unselected group requests nothing; pressing one of a
selected group requests Joypad exactly when its line was high. -/
def Obligations.JoypadRequests : Prop :=
  ∀ (j : Joypad) (b : Button),
    let line := match b with
      | .right | .a => 0
      | .left | .b => 1
      | .up | .select => 2
      | .down | .start => 3
    let selectBit := match b with
      | .right | .left | .up | .down => 0
      | .a | .b | .select | .start => 1
    (setButton j b false).2 = false ∧
    ((setButton j b true).2 = true ↔ j.select.getLsbD selectBit = false ∧ (p1Read j).getLsbD line = true)

/-! ## Reset and invariants -/

/-- R45, R476, R511: a reset by the host gives every block its RESET_<name>; and, where these are the recommended ones, the
values of R45's table and of R476. (OBP0, OBP1, the clock and `serial_internal` are log entries 1, 4 and 23 and stand in no
clause of the table; the form of a blank line-buffer entry is log entry 22; what else a reset carries over is log entry
19.) -/
def Obligations.ResetLeaves : Prop :=
  ∀ (s : State) (keep : Bool),
    let t := s.hostReset keep
    let rp := s.params.resetValues
    (t.cpu = { rp.cpu with fault := none } ∧ t.ifReg = rp.ifReg ∧ t.ie = rp.ie ∧ t.timer = rp.timer ∧ t.dma = rp.dma ∧
      t.ppu = rp.ppu ∧ t.serial = { rp.serial with device := s.serial.device } ∧ t.joypad = rp.joypad) ∧
    (t.cart.rom = s.cart.rom ∧ t.cart.config = s.cart.config ∧ t.params = s.params ∧ t.wram = s.params.ramInit.wram ∧
      t.hram = s.params.ramInit.hram ∧ t.vram = s.params.ramInit.vram ∧ t.oam = s.params.ramInit.oam ∧
      t.cart.eram = if keep then s.cart.eram else s.params.ramInit.eram) ∧
    (rp = ResetParams.recommended →
      t.cpu = { a := 0x01, f := 0xB0, b := 0x00, c := 0x13, d := 0x00, e := 0xD8, h := 0x01, l := 0x4D, sp := 0xFFFE,
                pc := 0x0100, ime := false, halted := false, imePending := false, haltBug := false, fault := none } ∧
      t.ifReg = 0x01 ∧ t.ie = 0x00 ∧
      t.timer = { div := 0xABCC, tima := 0x00, tma := 0x00, tac := 0 } ∧
      t.dma = { remaining := 0, blocked := false, page := 0xFF } ∧
      (t.ppu.lcdc = 0x91 ∧ statRead t.ppu = 0x86 ∧ t.ppu.scy = 0 ∧ t.ppu.scx = 0 ∧ t.ppu.ly = 0 ∧ t.ppu.lyc = 0 ∧
        t.ppu.bgp = 0xFC ∧ t.ppu.wy = 0 ∧ t.ppu.wx = 0 ∧ t.ppu.mode = .oamScan ∧ t.ppu.line = 0 ∧ t.ppu.lineDot = 0 ∧
        t.ppu.mode3Len = 172 ∧ t.ppu.windowLine = 0 ∧ t.ppu.wyLatch = true ∧ t.ppu.statLine = false ∧
        t.ppu.lycPulse = false ∧ t.ppu.frameComplete = false ∧
        t.ppu.frame = Vector.replicate 144 (Vector.replicate 160 0) ∧
        t.ppu.lineBuffer = Vector.replicate 160 { index := 0, sprite := false, priority := false, palette := .bgp }) ∧
      (t.serial.sb = 0 ∧ scRead t.serial = 0x7E ∧ t.serial.busy = false ∧ t.serial.remaining = 0 ∧ t.serial.bits = 0) ∧
      p1Read t.joypad = 0xCF ∧
      (∀ m, t.cart.mapper = .mbc1 m → m = { ramEnable := false, bank1 := 1, bank2 := 0, mode := false }) ∧
      (∀ m, t.cart.mapper = .mbc2 m → m = { ramEnable := false, romBank := 1 }) ∧
      (∀ m, t.cart.mapper = .mbc3 m → m.ramEnable = false ∧ m.romBank = 1 ∧ m.ramSel = 0 ∧ m.latchPrev = false) ∧
      (∀ m, t.cart.mapper = .mbc5 m → m = { ramEnable := false, romBank := 1, ramBank := 0 }))

/-- Every invariant below holds at reset, in the machine and in its reset values. -/
def Obligations.ResetMeetsInvariants : Prop := State.reset.Inv

/-- Every memory array stays in canonical form, whatever the step does. The canonical form and the byte an unlisted entry reads
as are the model's own representation (log entries 17 and 2), no rule of the spec. -/
def Obligations.StepKeepsMemoryCanonical : Prop :=
  ∀ s t : State, s.MemInv → step s = .next t → t.MemInv

/-- R24: the low four bits of F are always 0 (given that RESET_F's are). -/
def Obligations.StepKeepsFlagNibbleZero : Prop :=
  ∀ s t : State, s.FlagInv → step s = .next t → t.FlagInv

/-- R373: "dma_blocked = 1 exactly when dma_remaining > 0", for DMA_CYCLES above 0 (given it of the reset
values too). -/
def Obligations.StepKeepsDmaWindow : Prop :=
  ∀ s t : State, s.DmaInv → step s = .next t → t.DmaInv

/-- R387, R391, R396, R398: LY and the mode are always those of the PPU's place in the frame; with the LCD off, 0
(given it of the reset values too). -/
def Obligations.StepKeepsPpuPlace : Prop :=
  ∀ s t : State, s.PpuInv → step s = .next t → t.PpuInv

/-- R450, R455, R460, R465, R492, R493: bank registers that are "never 0" never are; the clock's and the serial port's
counters stay in their ranges; SC bit 7 is set exactly while a transfer is on. -/
def Obligations.StepKeepsDevices : Prop :=
  ∀ s t : State, s.DeviceInv → step s = .next t → t.DeviceInv

/-- R320: "halt_bug ... cannot be 1 here": while the HALT bug is pending nothing can be dispatched. -/
def Obligations.StepKeepsHaltBugUndispatched : Prop :=
  ∀ s t : State, s.HaltBugInv → step s = .next t → t.HaltBugInv
end

