-- ==== Sys2Proof/Laws/Memory.lean ====
section
/-! SUPPORT. The laws of a memory array: what a read gives after a write, and that a write keeps the canonical form. -/

namespace Sys2Proof.Machine

@[simp] theorem Memory.read_nil (a : Nat) : Memory.read [] a = Memory.unlisted := rfl

/-- A write leaves every other offset alone. -/
theorem Memory.read_write_of_ne (m : Memory) {a b : Nat} (v : Byte) (h : b ≠ a) : (m.write a v).read b = m.read b := by
  induction m with
  | nil => by_cases hv : v = Memory.unlisted <;> simp [Memory.write, Memory.read, hv, Ne.symm h]
  | cons e t ih =>
    obtain ⟨k, w⟩ := e
    by_cases h1 : a < k
    · by_cases hv : v = Memory.unlisted <;> simp [Memory.write, Memory.read, h1, hv, Ne.symm h]
    · by_cases h2 : k = a
      · by_cases hv : v = Memory.unlisted <;> simp [Memory.write, Memory.read, h2, hv, Ne.symm h]
      · simp only [Memory.write, if_neg h1, if_neg h2, Memory.read, ih]

/-- Below its first offset a canonical array lists nothing. -/
theorem Memory.read_of_wfFrom (m : Memory) {lo a : Nat} (hw : Memory.wfFrom (some lo) m = true) (h : a ≤ lo) :
    m.read a = Memory.unlisted := by
  induction m generalizing lo with
  | nil => rfl
  | cons e t ih =>
    obtain ⟨k, w⟩ := e
    simp only [Memory.wfFrom, Option.all_some, Bool.and_eq_true, decide_eq_true_eq] at hw
    obtain ⟨⟨hk, -⟩, ht⟩ := hw
    rw [Memory.read, if_neg (by omega)]
    exact ih ht (by omega)

/-- A canonical array reads back what is written. -/
theorem Memory.read_write_self_from (m : Memory) (lo : Option Nat) (a : Nat) (v : Byte)
    (hw : Memory.wfFrom lo m = true) : (m.write a v).read a = v := by
  induction m generalizing lo with
  | nil => by_cases hv : v = Memory.unlisted <;> simp [Memory.write, Memory.read, hv]
  | cons e t ih =>
    obtain ⟨k, w⟩ := e
    simp only [Memory.wfFrom, Bool.and_eq_true] at hw
    obtain ⟨-, ht⟩ := hw
    by_cases h1 : a < k
    · have hr := Memory.read_of_wfFrom t ht (Nat.le_of_lt h1)
      have hne : k ≠ a := by omega
      by_cases hv : v = Memory.unlisted <;> simp [Memory.write, Memory.read, h1, hv, hne, hr]
    · by_cases h2 : k = a
      · subst h2
        have hr := Memory.read_of_wfFrom t ht (Nat.le_refl k)
        by_cases hv : v = Memory.unlisted <;> simp [Memory.write, Memory.read, hv, hr]
      · simp only [Memory.write, if_neg h1, if_neg h2, Memory.read]
        exact ih _ ht

theorem Memory.read_write_self {m : Memory} (hw : m.wf = true) (a : Nat) (v : Byte) : (m.write a v).read a = v :=
  Memory.read_write_self_from m none a v hw

/-- A bound further down is met too. -/
theorem Memory.wfFrom_mono {m : Memory} {lo k : Nat} (h : Memory.wfFrom (some k) m = true) (hlt : lo < k) :
    Memory.wfFrom (some lo) m = true := by
  cases m with
  | nil => rfl
  | cons e t =>
    obtain ⟨j, w⟩ := e
    simp only [Memory.wfFrom, Option.all_some, Bool.and_eq_true, decide_eq_true_eq] at h ⊢
    exact ⟨⟨by omega, h.1.2⟩, h.2⟩

/-- A write keeps the canonical form, above any bound its offset meets. -/
theorem Memory.wfFrom_write (m : Memory) (lo : Option Nat) (a : Nat) (v : Byte) (hlo : lo.all (· < a) = true)
    (hw : Memory.wfFrom lo m = true) : Memory.wfFrom lo (m.write a v) = true := by
  induction m generalizing lo with
  | nil => by_cases hv : v = Memory.unlisted <;> simp [Memory.write, Memory.wfFrom, hv, hlo]
  | cons e t ih =>
    obtain ⟨k, w⟩ := e
    have hw' := hw
    simp only [Memory.wfFrom, Bool.and_eq_true] at hw
    obtain ⟨⟨hk, hne⟩, ht⟩ := hw
    by_cases h1 : a < k
    · by_cases hv : v = Memory.unlisted
      · simpa [Memory.write, h1, hv] using hw'
      · simp [Memory.write, h1, hv, Memory.wfFrom, hlo, hne, ht]
    · by_cases h2 : k = a
      · subst h2
        by_cases hv : v = Memory.unlisted
        · simp only [Memory.write, Nat.lt_irrefl, if_false, if_true, hv]
          cases lo with
          | none =>
            cases t with
            | nil => rfl
            | cons e t =>
              obtain ⟨j, x⟩ := e
              simp only [Memory.wfFrom, Option.all_some, Bool.and_eq_true, decide_eq_true_eq] at ht
              simp [Memory.wfFrom, ht.1.2, ht.2]
          | some l => exact Memory.wfFrom_mono ht (by simpa using hk)
        · simp [Memory.write, hv, Memory.wfFrom, hk, ht]
      · have := ih (some k) (by simp; omega) ht
        simp [Memory.write, h1, h2, Memory.wfFrom, hk, hne, this]

/-- Every write keeps the canonical form. -/
theorem Memory.wf_write {m : Memory} (hw : m.wf = true) (a : Nat) (v : Byte) : (m.write a v).wf = true :=
  Memory.wfFrom_write m none a v rfl hw

/-- Two canonical arrays above a bound that read alike are equal. -/
theorem Memory.eq_of_read_from (m m' : Memory) (lo : Option Nat) (h : Memory.wfFrom lo m = true)
    (h' : Memory.wfFrom lo m' = true) (hr : ∀ a, m.read a = m'.read a) : m = m' := by
  induction m generalizing lo m' with
  | nil =>
    cases m' with
    | nil => rfl
    | cons e t =>
      obtain ⟨k, w⟩ := e
      simp only [Memory.wfFrom, Bool.and_eq_true, bne_iff_ne, ne_eq] at h'
      have := hr k
      simp [Memory.read] at this
      exact absurd this.symm h'.1.2
  | cons e t ih =>
    obtain ⟨k, w⟩ := e
    cases m' with
    | nil =>
      simp only [Memory.wfFrom, Bool.and_eq_true, bne_iff_ne, ne_eq] at h
      have := hr k
      simp [Memory.read] at this
      exact absurd this h.1.2
    | cons e' t' =>
      obtain ⟨k', w'⟩ := e'
      simp only [Memory.wfFrom, Bool.and_eq_true, bne_iff_ne, ne_eq] at h h'
      obtain ⟨⟨-, hw⟩, ht⟩ := h
      obtain ⟨⟨-, hw'⟩, ht'⟩ := h'
      have hk : k = k' := by
        rcases Nat.lt_trichotomy k k' with hlt | heq | hgt
        · have h1 := hr k
          rw [Memory.read, if_pos rfl, Memory.read, if_neg (by omega), Memory.read_of_wfFrom t' ht' (by omega)] at h1
          exact absurd h1 hw
        · exact heq
        · have h1 := hr k'
          rw [Memory.read, if_neg (by omega), Memory.read_of_wfFrom t ht (by omega), Memory.read, if_pos rfl] at h1
          exact absurd h1.symm hw'
      subst hk
      have hv : w = w' := by simpa [Memory.read] using hr k
      subst hv
      have : t = t' := ih t' (some k) ht ht' fun a => by
        by_cases ha : a ≤ k
        · rw [Memory.read_of_wfFrom t ht ha, Memory.read_of_wfFrom t' ht' ha]
        · have h1 := hr a
          rwa [Memory.read, if_neg (by omega), Memory.read, if_neg (by omega)] at h1
      rw [this]

/-- Equal memories are equal data. -/
theorem Memory.eq_of_read {m m' : Memory} (h : m.wf = true) (h' : m'.wf = true) (hr : ∀ a, m.read a = m'.read a) :
    m = m' := Memory.eq_of_read_from m m' none h h' hr

end Sys2Proof.Machine
end

