-- ==== Sys2Proof/Laws/State.lean ====
section
/-! SUPPORT. One lemma per field per update of State: no later proof unfolds a record update. -/

namespace Sys2Proof.Machine

/-! `setPc` -/

@[simp] theorem State.setPc_a (s : State) (v : Word) : (s.setPc v).cpu.a = s.cpu.a := rfl
@[simp] theorem State.setPc_f (s : State) (v : Word) : (s.setPc v).cpu.f = s.cpu.f := rfl
@[simp] theorem State.setPc_b (s : State) (v : Word) : (s.setPc v).cpu.b = s.cpu.b := rfl
@[simp] theorem State.setPc_c (s : State) (v : Word) : (s.setPc v).cpu.c = s.cpu.c := rfl
@[simp] theorem State.setPc_d (s : State) (v : Word) : (s.setPc v).cpu.d = s.cpu.d := rfl
@[simp] theorem State.setPc_e (s : State) (v : Word) : (s.setPc v).cpu.e = s.cpu.e := rfl
@[simp] theorem State.setPc_h (s : State) (v : Word) : (s.setPc v).cpu.h = s.cpu.h := rfl
@[simp] theorem State.setPc_l (s : State) (v : Word) : (s.setPc v).cpu.l = s.cpu.l := rfl
@[simp] theorem State.setPc_sp (s : State) (v : Word) : (s.setPc v).cpu.sp = s.cpu.sp := rfl
@[simp] theorem State.setPc_pc (s : State) (v : Word) : (s.setPc v).cpu.pc = v := rfl
@[simp] theorem State.setPc_ime (s : State) (v : Word) : (s.setPc v).cpu.ime = s.cpu.ime := rfl
@[simp] theorem State.setPc_halted (s : State) (v : Word) : (s.setPc v).cpu.halted = s.cpu.halted := rfl
@[simp] theorem State.setPc_imePending (s : State) (v : Word) : (s.setPc v).cpu.imePending = s.cpu.imePending := rfl
@[simp] theorem State.setPc_haltBug (s : State) (v : Word) : (s.setPc v).cpu.haltBug = s.cpu.haltBug := rfl
@[simp] theorem State.setPc_fault (s : State) (v : Word) : (s.setPc v).cpu.fault = s.cpu.fault := rfl
@[simp] theorem State.setPc_ifReg (s : State) (v : Word) : (s.setPc v).ifReg = s.ifReg := rfl
@[simp] theorem State.setPc_ie (s : State) (v : Word) : (s.setPc v).ie = s.ie := rfl
@[simp] theorem State.setPc_vram (s : State) (v : Word) : (s.setPc v).vram = s.vram := rfl
@[simp] theorem State.setPc_wram (s : State) (v : Word) : (s.setPc v).wram = s.wram := rfl
@[simp] theorem State.setPc_oam (s : State) (v : Word) : (s.setPc v).oam = s.oam := rfl
@[simp] theorem State.setPc_hram (s : State) (v : Word) : (s.setPc v).hram = s.hram := rfl
@[simp] theorem State.setPc_timer (s : State) (v : Word) : (s.setPc v).timer = s.timer := rfl
@[simp] theorem State.setPc_dma (s : State) (v : Word) : (s.setPc v).dma = s.dma := rfl
@[simp] theorem State.setPc_ppu (s : State) (v : Word) : (s.setPc v).ppu = s.ppu := rfl
@[simp] theorem State.setPc_serial (s : State) (v : Word) : (s.setPc v).serial = s.serial := rfl
@[simp] theorem State.setPc_joypad (s : State) (v : Word) : (s.setPc v).joypad = s.joypad := rfl
@[simp] theorem State.setPc_cart (s : State) (v : Word) : (s.setPc v).cart = s.cart := rfl
@[simp] theorem State.setPc_params (s : State) (v : Word) : (s.setPc v).params = s.params := rfl
@[simp] theorem State.setPc_inputs (s : State) (v : Word) : (s.setPc v).inputs = s.inputs := rfl
@[simp] theorem State.setPc_cycles (s : State) (v : Word) : (s.setPc v).cycles = s.cycles := rfl
@[simp] theorem State.setPc_apuSeq (s : State) (v : Word) : (s.setPc v).apuSeq = s.apuSeq := rfl

/-! `setSp` -/

@[simp] theorem State.setSp_a (s : State) (v : Word) : (s.setSp v).cpu.a = s.cpu.a := rfl
@[simp] theorem State.setSp_f (s : State) (v : Word) : (s.setSp v).cpu.f = s.cpu.f := rfl
@[simp] theorem State.setSp_b (s : State) (v : Word) : (s.setSp v).cpu.b = s.cpu.b := rfl
@[simp] theorem State.setSp_c (s : State) (v : Word) : (s.setSp v).cpu.c = s.cpu.c := rfl
@[simp] theorem State.setSp_d (s : State) (v : Word) : (s.setSp v).cpu.d = s.cpu.d := rfl
@[simp] theorem State.setSp_e (s : State) (v : Word) : (s.setSp v).cpu.e = s.cpu.e := rfl
@[simp] theorem State.setSp_h (s : State) (v : Word) : (s.setSp v).cpu.h = s.cpu.h := rfl
@[simp] theorem State.setSp_l (s : State) (v : Word) : (s.setSp v).cpu.l = s.cpu.l := rfl
@[simp] theorem State.setSp_sp (s : State) (v : Word) : (s.setSp v).cpu.sp = v := rfl
@[simp] theorem State.setSp_pc (s : State) (v : Word) : (s.setSp v).cpu.pc = s.cpu.pc := rfl
@[simp] theorem State.setSp_ime (s : State) (v : Word) : (s.setSp v).cpu.ime = s.cpu.ime := rfl
@[simp] theorem State.setSp_halted (s : State) (v : Word) : (s.setSp v).cpu.halted = s.cpu.halted := rfl
@[simp] theorem State.setSp_imePending (s : State) (v : Word) : (s.setSp v).cpu.imePending = s.cpu.imePending := rfl
@[simp] theorem State.setSp_haltBug (s : State) (v : Word) : (s.setSp v).cpu.haltBug = s.cpu.haltBug := rfl
@[simp] theorem State.setSp_fault (s : State) (v : Word) : (s.setSp v).cpu.fault = s.cpu.fault := rfl
@[simp] theorem State.setSp_ifReg (s : State) (v : Word) : (s.setSp v).ifReg = s.ifReg := rfl
@[simp] theorem State.setSp_ie (s : State) (v : Word) : (s.setSp v).ie = s.ie := rfl
@[simp] theorem State.setSp_vram (s : State) (v : Word) : (s.setSp v).vram = s.vram := rfl
@[simp] theorem State.setSp_wram (s : State) (v : Word) : (s.setSp v).wram = s.wram := rfl
@[simp] theorem State.setSp_oam (s : State) (v : Word) : (s.setSp v).oam = s.oam := rfl
@[simp] theorem State.setSp_hram (s : State) (v : Word) : (s.setSp v).hram = s.hram := rfl
@[simp] theorem State.setSp_timer (s : State) (v : Word) : (s.setSp v).timer = s.timer := rfl
@[simp] theorem State.setSp_dma (s : State) (v : Word) : (s.setSp v).dma = s.dma := rfl
@[simp] theorem State.setSp_ppu (s : State) (v : Word) : (s.setSp v).ppu = s.ppu := rfl
@[simp] theorem State.setSp_serial (s : State) (v : Word) : (s.setSp v).serial = s.serial := rfl
@[simp] theorem State.setSp_joypad (s : State) (v : Word) : (s.setSp v).joypad = s.joypad := rfl
@[simp] theorem State.setSp_cart (s : State) (v : Word) : (s.setSp v).cart = s.cart := rfl
@[simp] theorem State.setSp_params (s : State) (v : Word) : (s.setSp v).params = s.params := rfl
@[simp] theorem State.setSp_inputs (s : State) (v : Word) : (s.setSp v).inputs = s.inputs := rfl
@[simp] theorem State.setSp_cycles (s : State) (v : Word) : (s.setSp v).cycles = s.cycles := rfl
@[simp] theorem State.setSp_apuSeq (s : State) (v : Word) : (s.setSp v).apuSeq = s.apuSeq := rfl

/-! `setF` -/

@[simp] theorem State.setF_a (s : State) (v : Byte) : (s.setF v).cpu.a = s.cpu.a := rfl
@[simp] theorem State.setF_f (s : State) (v : Byte) : (s.setF v).cpu.f = v := rfl
@[simp] theorem State.setF_b (s : State) (v : Byte) : (s.setF v).cpu.b = s.cpu.b := rfl
@[simp] theorem State.setF_c (s : State) (v : Byte) : (s.setF v).cpu.c = s.cpu.c := rfl
@[simp] theorem State.setF_d (s : State) (v : Byte) : (s.setF v).cpu.d = s.cpu.d := rfl
@[simp] theorem State.setF_e (s : State) (v : Byte) : (s.setF v).cpu.e = s.cpu.e := rfl
@[simp] theorem State.setF_h (s : State) (v : Byte) : (s.setF v).cpu.h = s.cpu.h := rfl
@[simp] theorem State.setF_l (s : State) (v : Byte) : (s.setF v).cpu.l = s.cpu.l := rfl
@[simp] theorem State.setF_sp (s : State) (v : Byte) : (s.setF v).cpu.sp = s.cpu.sp := rfl
@[simp] theorem State.setF_pc (s : State) (v : Byte) : (s.setF v).cpu.pc = s.cpu.pc := rfl
@[simp] theorem State.setF_ime (s : State) (v : Byte) : (s.setF v).cpu.ime = s.cpu.ime := rfl
@[simp] theorem State.setF_halted (s : State) (v : Byte) : (s.setF v).cpu.halted = s.cpu.halted := rfl
@[simp] theorem State.setF_imePending (s : State) (v : Byte) : (s.setF v).cpu.imePending = s.cpu.imePending := rfl
@[simp] theorem State.setF_haltBug (s : State) (v : Byte) : (s.setF v).cpu.haltBug = s.cpu.haltBug := rfl
@[simp] theorem State.setF_fault (s : State) (v : Byte) : (s.setF v).cpu.fault = s.cpu.fault := rfl
@[simp] theorem State.setF_ifReg (s : State) (v : Byte) : (s.setF v).ifReg = s.ifReg := rfl
@[simp] theorem State.setF_ie (s : State) (v : Byte) : (s.setF v).ie = s.ie := rfl
@[simp] theorem State.setF_vram (s : State) (v : Byte) : (s.setF v).vram = s.vram := rfl
@[simp] theorem State.setF_wram (s : State) (v : Byte) : (s.setF v).wram = s.wram := rfl
@[simp] theorem State.setF_oam (s : State) (v : Byte) : (s.setF v).oam = s.oam := rfl
@[simp] theorem State.setF_hram (s : State) (v : Byte) : (s.setF v).hram = s.hram := rfl
@[simp] theorem State.setF_timer (s : State) (v : Byte) : (s.setF v).timer = s.timer := rfl
@[simp] theorem State.setF_dma (s : State) (v : Byte) : (s.setF v).dma = s.dma := rfl
@[simp] theorem State.setF_ppu (s : State) (v : Byte) : (s.setF v).ppu = s.ppu := rfl
@[simp] theorem State.setF_serial (s : State) (v : Byte) : (s.setF v).serial = s.serial := rfl
@[simp] theorem State.setF_joypad (s : State) (v : Byte) : (s.setF v).joypad = s.joypad := rfl
@[simp] theorem State.setF_cart (s : State) (v : Byte) : (s.setF v).cart = s.cart := rfl
@[simp] theorem State.setF_params (s : State) (v : Byte) : (s.setF v).params = s.params := rfl
@[simp] theorem State.setF_inputs (s : State) (v : Byte) : (s.setF v).inputs = s.inputs := rfl
@[simp] theorem State.setF_cycles (s : State) (v : Byte) : (s.setF v).cycles = s.cycles := rfl
@[simp] theorem State.setF_apuSeq (s : State) (v : Byte) : (s.setF v).apuSeq = s.apuSeq := rfl

/-! `setAFlags` -/

@[simp] theorem State.setAFlags_a (s : State) (r : Alu) : (s.setAFlags r).cpu.a = r.val := rfl
@[simp] theorem State.setAFlags_f (s : State) (r : Alu) : (s.setAFlags r).cpu.f = r.f := rfl
@[simp] theorem State.setAFlags_b (s : State) (r : Alu) : (s.setAFlags r).cpu.b = s.cpu.b := rfl
@[simp] theorem State.setAFlags_c (s : State) (r : Alu) : (s.setAFlags r).cpu.c = s.cpu.c := rfl
@[simp] theorem State.setAFlags_d (s : State) (r : Alu) : (s.setAFlags r).cpu.d = s.cpu.d := rfl
@[simp] theorem State.setAFlags_e (s : State) (r : Alu) : (s.setAFlags r).cpu.e = s.cpu.e := rfl
@[simp] theorem State.setAFlags_h (s : State) (r : Alu) : (s.setAFlags r).cpu.h = s.cpu.h := rfl
@[simp] theorem State.setAFlags_l (s : State) (r : Alu) : (s.setAFlags r).cpu.l = s.cpu.l := rfl
@[simp] theorem State.setAFlags_sp (s : State) (r : Alu) : (s.setAFlags r).cpu.sp = s.cpu.sp := rfl
@[simp] theorem State.setAFlags_pc (s : State) (r : Alu) : (s.setAFlags r).cpu.pc = s.cpu.pc := rfl
@[simp] theorem State.setAFlags_ime (s : State) (r : Alu) : (s.setAFlags r).cpu.ime = s.cpu.ime := rfl
@[simp] theorem State.setAFlags_halted (s : State) (r : Alu) : (s.setAFlags r).cpu.halted = s.cpu.halted := rfl
@[simp] theorem State.setAFlags_imePending (s : State) (r : Alu) : (s.setAFlags r).cpu.imePending = s.cpu.imePending := rfl
@[simp] theorem State.setAFlags_haltBug (s : State) (r : Alu) : (s.setAFlags r).cpu.haltBug = s.cpu.haltBug := rfl
@[simp] theorem State.setAFlags_fault (s : State) (r : Alu) : (s.setAFlags r).cpu.fault = s.cpu.fault := rfl
@[simp] theorem State.setAFlags_ifReg (s : State) (r : Alu) : (s.setAFlags r).ifReg = s.ifReg := rfl
@[simp] theorem State.setAFlags_ie (s : State) (r : Alu) : (s.setAFlags r).ie = s.ie := rfl
@[simp] theorem State.setAFlags_vram (s : State) (r : Alu) : (s.setAFlags r).vram = s.vram := rfl
@[simp] theorem State.setAFlags_wram (s : State) (r : Alu) : (s.setAFlags r).wram = s.wram := rfl
@[simp] theorem State.setAFlags_oam (s : State) (r : Alu) : (s.setAFlags r).oam = s.oam := rfl
@[simp] theorem State.setAFlags_hram (s : State) (r : Alu) : (s.setAFlags r).hram = s.hram := rfl
@[simp] theorem State.setAFlags_timer (s : State) (r : Alu) : (s.setAFlags r).timer = s.timer := rfl
@[simp] theorem State.setAFlags_dma (s : State) (r : Alu) : (s.setAFlags r).dma = s.dma := rfl
@[simp] theorem State.setAFlags_ppu (s : State) (r : Alu) : (s.setAFlags r).ppu = s.ppu := rfl
@[simp] theorem State.setAFlags_serial (s : State) (r : Alu) : (s.setAFlags r).serial = s.serial := rfl
@[simp] theorem State.setAFlags_joypad (s : State) (r : Alu) : (s.setAFlags r).joypad = s.joypad := rfl
@[simp] theorem State.setAFlags_cart (s : State) (r : Alu) : (s.setAFlags r).cart = s.cart := rfl
@[simp] theorem State.setAFlags_params (s : State) (r : Alu) : (s.setAFlags r).params = s.params := rfl
@[simp] theorem State.setAFlags_inputs (s : State) (r : Alu) : (s.setAFlags r).inputs = s.inputs := rfl
@[simp] theorem State.setAFlags_cycles (s : State) (r : Alu) : (s.setAFlags r).cycles = s.cycles := rfl
@[simp] theorem State.setAFlags_apuSeq (s : State) (r : Alu) : (s.setAFlags r).apuSeq = s.apuSeq := rfl

/-! `setBc` -/

@[simp] theorem State.setBc_a (s : State) (v : Word) : (s.setBc v).cpu.a = s.cpu.a := rfl
@[simp] theorem State.setBc_f (s : State) (v : Word) : (s.setBc v).cpu.f = s.cpu.f := rfl
@[simp] theorem State.setBc_b (s : State) (v : Word) : (s.setBc v).cpu.b = hiByte v := rfl
@[simp] theorem State.setBc_c (s : State) (v : Word) : (s.setBc v).cpu.c = loByte v := rfl
@[simp] theorem State.setBc_d (s : State) (v : Word) : (s.setBc v).cpu.d = s.cpu.d := rfl
@[simp] theorem State.setBc_e (s : State) (v : Word) : (s.setBc v).cpu.e = s.cpu.e := rfl
@[simp] theorem State.setBc_h (s : State) (v : Word) : (s.setBc v).cpu.h = s.cpu.h := rfl
@[simp] theorem State.setBc_l (s : State) (v : Word) : (s.setBc v).cpu.l = s.cpu.l := rfl
@[simp] theorem State.setBc_sp (s : State) (v : Word) : (s.setBc v).cpu.sp = s.cpu.sp := rfl
@[simp] theorem State.setBc_pc (s : State) (v : Word) : (s.setBc v).cpu.pc = s.cpu.pc := rfl
@[simp] theorem State.setBc_ime (s : State) (v : Word) : (s.setBc v).cpu.ime = s.cpu.ime := rfl
@[simp] theorem State.setBc_halted (s : State) (v : Word) : (s.setBc v).cpu.halted = s.cpu.halted := rfl
@[simp] theorem State.setBc_imePending (s : State) (v : Word) : (s.setBc v).cpu.imePending = s.cpu.imePending := rfl
@[simp] theorem State.setBc_haltBug (s : State) (v : Word) : (s.setBc v).cpu.haltBug = s.cpu.haltBug := rfl
@[simp] theorem State.setBc_fault (s : State) (v : Word) : (s.setBc v).cpu.fault = s.cpu.fault := rfl
@[simp] theorem State.setBc_ifReg (s : State) (v : Word) : (s.setBc v).ifReg = s.ifReg := rfl
@[simp] theorem State.setBc_ie (s : State) (v : Word) : (s.setBc v).ie = s.ie := rfl
@[simp] theorem State.setBc_vram (s : State) (v : Word) : (s.setBc v).vram = s.vram := rfl
@[simp] theorem State.setBc_wram (s : State) (v : Word) : (s.setBc v).wram = s.wram := rfl
@[simp] theorem State.setBc_oam (s : State) (v : Word) : (s.setBc v).oam = s.oam := rfl
@[simp] theorem State.setBc_hram (s : State) (v : Word) : (s.setBc v).hram = s.hram := rfl
@[simp] theorem State.setBc_timer (s : State) (v : Word) : (s.setBc v).timer = s.timer := rfl
@[simp] theorem State.setBc_dma (s : State) (v : Word) : (s.setBc v).dma = s.dma := rfl
@[simp] theorem State.setBc_ppu (s : State) (v : Word) : (s.setBc v).ppu = s.ppu := rfl
@[simp] theorem State.setBc_serial (s : State) (v : Word) : (s.setBc v).serial = s.serial := rfl
@[simp] theorem State.setBc_joypad (s : State) (v : Word) : (s.setBc v).joypad = s.joypad := rfl
@[simp] theorem State.setBc_cart (s : State) (v : Word) : (s.setBc v).cart = s.cart := rfl
@[simp] theorem State.setBc_params (s : State) (v : Word) : (s.setBc v).params = s.params := rfl
@[simp] theorem State.setBc_inputs (s : State) (v : Word) : (s.setBc v).inputs = s.inputs := rfl
@[simp] theorem State.setBc_cycles (s : State) (v : Word) : (s.setBc v).cycles = s.cycles := rfl
@[simp] theorem State.setBc_apuSeq (s : State) (v : Word) : (s.setBc v).apuSeq = s.apuSeq := rfl

/-! `setDe` -/

@[simp] theorem State.setDe_a (s : State) (v : Word) : (s.setDe v).cpu.a = s.cpu.a := rfl
@[simp] theorem State.setDe_f (s : State) (v : Word) : (s.setDe v).cpu.f = s.cpu.f := rfl
@[simp] theorem State.setDe_b (s : State) (v : Word) : (s.setDe v).cpu.b = s.cpu.b := rfl
@[simp] theorem State.setDe_c (s : State) (v : Word) : (s.setDe v).cpu.c = s.cpu.c := rfl
@[simp] theorem State.setDe_d (s : State) (v : Word) : (s.setDe v).cpu.d = hiByte v := rfl
@[simp] theorem State.setDe_e (s : State) (v : Word) : (s.setDe v).cpu.e = loByte v := rfl
@[simp] theorem State.setDe_h (s : State) (v : Word) : (s.setDe v).cpu.h = s.cpu.h := rfl
@[simp] theorem State.setDe_l (s : State) (v : Word) : (s.setDe v).cpu.l = s.cpu.l := rfl
@[simp] theorem State.setDe_sp (s : State) (v : Word) : (s.setDe v).cpu.sp = s.cpu.sp := rfl
@[simp] theorem State.setDe_pc (s : State) (v : Word) : (s.setDe v).cpu.pc = s.cpu.pc := rfl
@[simp] theorem State.setDe_ime (s : State) (v : Word) : (s.setDe v).cpu.ime = s.cpu.ime := rfl
@[simp] theorem State.setDe_halted (s : State) (v : Word) : (s.setDe v).cpu.halted = s.cpu.halted := rfl
@[simp] theorem State.setDe_imePending (s : State) (v : Word) : (s.setDe v).cpu.imePending = s.cpu.imePending := rfl
@[simp] theorem State.setDe_haltBug (s : State) (v : Word) : (s.setDe v).cpu.haltBug = s.cpu.haltBug := rfl
@[simp] theorem State.setDe_fault (s : State) (v : Word) : (s.setDe v).cpu.fault = s.cpu.fault := rfl
@[simp] theorem State.setDe_ifReg (s : State) (v : Word) : (s.setDe v).ifReg = s.ifReg := rfl
@[simp] theorem State.setDe_ie (s : State) (v : Word) : (s.setDe v).ie = s.ie := rfl
@[simp] theorem State.setDe_vram (s : State) (v : Word) : (s.setDe v).vram = s.vram := rfl
@[simp] theorem State.setDe_wram (s : State) (v : Word) : (s.setDe v).wram = s.wram := rfl
@[simp] theorem State.setDe_oam (s : State) (v : Word) : (s.setDe v).oam = s.oam := rfl
@[simp] theorem State.setDe_hram (s : State) (v : Word) : (s.setDe v).hram = s.hram := rfl
@[simp] theorem State.setDe_timer (s : State) (v : Word) : (s.setDe v).timer = s.timer := rfl
@[simp] theorem State.setDe_dma (s : State) (v : Word) : (s.setDe v).dma = s.dma := rfl
@[simp] theorem State.setDe_ppu (s : State) (v : Word) : (s.setDe v).ppu = s.ppu := rfl
@[simp] theorem State.setDe_serial (s : State) (v : Word) : (s.setDe v).serial = s.serial := rfl
@[simp] theorem State.setDe_joypad (s : State) (v : Word) : (s.setDe v).joypad = s.joypad := rfl
@[simp] theorem State.setDe_cart (s : State) (v : Word) : (s.setDe v).cart = s.cart := rfl
@[simp] theorem State.setDe_params (s : State) (v : Word) : (s.setDe v).params = s.params := rfl
@[simp] theorem State.setDe_inputs (s : State) (v : Word) : (s.setDe v).inputs = s.inputs := rfl
@[simp] theorem State.setDe_cycles (s : State) (v : Word) : (s.setDe v).cycles = s.cycles := rfl
@[simp] theorem State.setDe_apuSeq (s : State) (v : Word) : (s.setDe v).apuSeq = s.apuSeq := rfl

/-! `setHl` -/

@[simp] theorem State.setHl_a (s : State) (v : Word) : (s.setHl v).cpu.a = s.cpu.a := rfl
@[simp] theorem State.setHl_f (s : State) (v : Word) : (s.setHl v).cpu.f = s.cpu.f := rfl
@[simp] theorem State.setHl_b (s : State) (v : Word) : (s.setHl v).cpu.b = s.cpu.b := rfl
@[simp] theorem State.setHl_c (s : State) (v : Word) : (s.setHl v).cpu.c = s.cpu.c := rfl
@[simp] theorem State.setHl_d (s : State) (v : Word) : (s.setHl v).cpu.d = s.cpu.d := rfl
@[simp] theorem State.setHl_e (s : State) (v : Word) : (s.setHl v).cpu.e = s.cpu.e := rfl
@[simp] theorem State.setHl_h (s : State) (v : Word) : (s.setHl v).cpu.h = hiByte v := rfl
@[simp] theorem State.setHl_l (s : State) (v : Word) : (s.setHl v).cpu.l = loByte v := rfl
@[simp] theorem State.setHl_sp (s : State) (v : Word) : (s.setHl v).cpu.sp = s.cpu.sp := rfl
@[simp] theorem State.setHl_pc (s : State) (v : Word) : (s.setHl v).cpu.pc = s.cpu.pc := rfl
@[simp] theorem State.setHl_ime (s : State) (v : Word) : (s.setHl v).cpu.ime = s.cpu.ime := rfl
@[simp] theorem State.setHl_halted (s : State) (v : Word) : (s.setHl v).cpu.halted = s.cpu.halted := rfl
@[simp] theorem State.setHl_imePending (s : State) (v : Word) : (s.setHl v).cpu.imePending = s.cpu.imePending := rfl
@[simp] theorem State.setHl_haltBug (s : State) (v : Word) : (s.setHl v).cpu.haltBug = s.cpu.haltBug := rfl
@[simp] theorem State.setHl_fault (s : State) (v : Word) : (s.setHl v).cpu.fault = s.cpu.fault := rfl
@[simp] theorem State.setHl_ifReg (s : State) (v : Word) : (s.setHl v).ifReg = s.ifReg := rfl
@[simp] theorem State.setHl_ie (s : State) (v : Word) : (s.setHl v).ie = s.ie := rfl
@[simp] theorem State.setHl_vram (s : State) (v : Word) : (s.setHl v).vram = s.vram := rfl
@[simp] theorem State.setHl_wram (s : State) (v : Word) : (s.setHl v).wram = s.wram := rfl
@[simp] theorem State.setHl_oam (s : State) (v : Word) : (s.setHl v).oam = s.oam := rfl
@[simp] theorem State.setHl_hram (s : State) (v : Word) : (s.setHl v).hram = s.hram := rfl
@[simp] theorem State.setHl_timer (s : State) (v : Word) : (s.setHl v).timer = s.timer := rfl
@[simp] theorem State.setHl_dma (s : State) (v : Word) : (s.setHl v).dma = s.dma := rfl
@[simp] theorem State.setHl_ppu (s : State) (v : Word) : (s.setHl v).ppu = s.ppu := rfl
@[simp] theorem State.setHl_serial (s : State) (v : Word) : (s.setHl v).serial = s.serial := rfl
@[simp] theorem State.setHl_joypad (s : State) (v : Word) : (s.setHl v).joypad = s.joypad := rfl
@[simp] theorem State.setHl_cart (s : State) (v : Word) : (s.setHl v).cart = s.cart := rfl
@[simp] theorem State.setHl_params (s : State) (v : Word) : (s.setHl v).params = s.params := rfl
@[simp] theorem State.setHl_inputs (s : State) (v : Word) : (s.setHl v).inputs = s.inputs := rfl
@[simp] theorem State.setHl_cycles (s : State) (v : Word) : (s.setHl v).cycles = s.cycles := rfl
@[simp] theorem State.setHl_apuSeq (s : State) (v : Word) : (s.setHl v).apuSeq = s.apuSeq := rfl

/-! `setAf` -/

@[simp] theorem State.setAf_a (s : State) (v : Word) : (s.setAf v).cpu.a = hiByte v := rfl
@[simp] theorem State.setAf_f (s : State) (v : Word) : (s.setAf v).cpu.f = maskF (loByte v) := rfl
@[simp] theorem State.setAf_b (s : State) (v : Word) : (s.setAf v).cpu.b = s.cpu.b := rfl
@[simp] theorem State.setAf_c (s : State) (v : Word) : (s.setAf v).cpu.c = s.cpu.c := rfl
@[simp] theorem State.setAf_d (s : State) (v : Word) : (s.setAf v).cpu.d = s.cpu.d := rfl
@[simp] theorem State.setAf_e (s : State) (v : Word) : (s.setAf v).cpu.e = s.cpu.e := rfl
@[simp] theorem State.setAf_h (s : State) (v : Word) : (s.setAf v).cpu.h = s.cpu.h := rfl
@[simp] theorem State.setAf_l (s : State) (v : Word) : (s.setAf v).cpu.l = s.cpu.l := rfl
@[simp] theorem State.setAf_sp (s : State) (v : Word) : (s.setAf v).cpu.sp = s.cpu.sp := rfl
@[simp] theorem State.setAf_pc (s : State) (v : Word) : (s.setAf v).cpu.pc = s.cpu.pc := rfl
@[simp] theorem State.setAf_ime (s : State) (v : Word) : (s.setAf v).cpu.ime = s.cpu.ime := rfl
@[simp] theorem State.setAf_halted (s : State) (v : Word) : (s.setAf v).cpu.halted = s.cpu.halted := rfl
@[simp] theorem State.setAf_imePending (s : State) (v : Word) : (s.setAf v).cpu.imePending = s.cpu.imePending := rfl
@[simp] theorem State.setAf_haltBug (s : State) (v : Word) : (s.setAf v).cpu.haltBug = s.cpu.haltBug := rfl
@[simp] theorem State.setAf_fault (s : State) (v : Word) : (s.setAf v).cpu.fault = s.cpu.fault := rfl
@[simp] theorem State.setAf_ifReg (s : State) (v : Word) : (s.setAf v).ifReg = s.ifReg := rfl
@[simp] theorem State.setAf_ie (s : State) (v : Word) : (s.setAf v).ie = s.ie := rfl
@[simp] theorem State.setAf_vram (s : State) (v : Word) : (s.setAf v).vram = s.vram := rfl
@[simp] theorem State.setAf_wram (s : State) (v : Word) : (s.setAf v).wram = s.wram := rfl
@[simp] theorem State.setAf_oam (s : State) (v : Word) : (s.setAf v).oam = s.oam := rfl
@[simp] theorem State.setAf_hram (s : State) (v : Word) : (s.setAf v).hram = s.hram := rfl
@[simp] theorem State.setAf_timer (s : State) (v : Word) : (s.setAf v).timer = s.timer := rfl
@[simp] theorem State.setAf_dma (s : State) (v : Word) : (s.setAf v).dma = s.dma := rfl
@[simp] theorem State.setAf_ppu (s : State) (v : Word) : (s.setAf v).ppu = s.ppu := rfl
@[simp] theorem State.setAf_serial (s : State) (v : Word) : (s.setAf v).serial = s.serial := rfl
@[simp] theorem State.setAf_joypad (s : State) (v : Word) : (s.setAf v).joypad = s.joypad := rfl
@[simp] theorem State.setAf_cart (s : State) (v : Word) : (s.setAf v).cart = s.cart := rfl
@[simp] theorem State.setAf_params (s : State) (v : Word) : (s.setAf v).params = s.params := rfl
@[simp] theorem State.setAf_inputs (s : State) (v : Word) : (s.setAf v).inputs = s.inputs := rfl
@[simp] theorem State.setAf_cycles (s : State) (v : Word) : (s.setAf v).cycles = s.cycles := rfl
@[simp] theorem State.setAf_apuSeq (s : State) (v : Word) : (s.setAf v).apuSeq = s.apuSeq := rfl

/-! `popped` -/

@[simp] theorem State.popped_a (s : State) : (s.popped).cpu.a = s.cpu.a := rfl
@[simp] theorem State.popped_f (s : State) : (s.popped).cpu.f = s.cpu.f := rfl
@[simp] theorem State.popped_b (s : State) : (s.popped).cpu.b = s.cpu.b := rfl
@[simp] theorem State.popped_c (s : State) : (s.popped).cpu.c = s.cpu.c := rfl
@[simp] theorem State.popped_d (s : State) : (s.popped).cpu.d = s.cpu.d := rfl
@[simp] theorem State.popped_e (s : State) : (s.popped).cpu.e = s.cpu.e := rfl
@[simp] theorem State.popped_h (s : State) : (s.popped).cpu.h = s.cpu.h := rfl
@[simp] theorem State.popped_l (s : State) : (s.popped).cpu.l = s.cpu.l := rfl
@[simp] theorem State.popped_sp (s : State) : (s.popped).cpu.sp = s.cpu.sp + 2 := rfl
@[simp] theorem State.popped_pc (s : State) : (s.popped).cpu.pc = s.cpu.pc := rfl
@[simp] theorem State.popped_ime (s : State) : (s.popped).cpu.ime = s.cpu.ime := rfl
@[simp] theorem State.popped_halted (s : State) : (s.popped).cpu.halted = s.cpu.halted := rfl
@[simp] theorem State.popped_imePending (s : State) : (s.popped).cpu.imePending = s.cpu.imePending := rfl
@[simp] theorem State.popped_haltBug (s : State) : (s.popped).cpu.haltBug = s.cpu.haltBug := rfl
@[simp] theorem State.popped_fault (s : State) : (s.popped).cpu.fault = s.cpu.fault := rfl
@[simp] theorem State.popped_ifReg (s : State) : (s.popped).ifReg = s.ifReg := rfl
@[simp] theorem State.popped_ie (s : State) : (s.popped).ie = s.ie := rfl
@[simp] theorem State.popped_vram (s : State) : (s.popped).vram = s.vram := rfl
@[simp] theorem State.popped_wram (s : State) : (s.popped).wram = s.wram := rfl
@[simp] theorem State.popped_oam (s : State) : (s.popped).oam = s.oam := rfl
@[simp] theorem State.popped_hram (s : State) : (s.popped).hram = s.hram := rfl
@[simp] theorem State.popped_timer (s : State) : (s.popped).timer = s.timer := rfl
@[simp] theorem State.popped_dma (s : State) : (s.popped).dma = s.dma := rfl
@[simp] theorem State.popped_ppu (s : State) : (s.popped).ppu = s.ppu := rfl
@[simp] theorem State.popped_serial (s : State) : (s.popped).serial = s.serial := rfl
@[simp] theorem State.popped_joypad (s : State) : (s.popped).joypad = s.joypad := rfl
@[simp] theorem State.popped_cart (s : State) : (s.popped).cart = s.cart := rfl
@[simp] theorem State.popped_params (s : State) : (s.popped).params = s.params := rfl
@[simp] theorem State.popped_inputs (s : State) : (s.popped).inputs = s.inputs := rfl
@[simp] theorem State.popped_cycles (s : State) : (s.popped).cycles = s.cycles := rfl
@[simp] theorem State.popped_apuSeq (s : State) : (s.popped).apuSeq = s.apuSeq := rfl

/-! `awake` -/

@[simp] theorem State.awake_a (s : State) : (s.awake).cpu.a = s.cpu.a := rfl
@[simp] theorem State.awake_f (s : State) : (s.awake).cpu.f = s.cpu.f := rfl
@[simp] theorem State.awake_b (s : State) : (s.awake).cpu.b = s.cpu.b := rfl
@[simp] theorem State.awake_c (s : State) : (s.awake).cpu.c = s.cpu.c := rfl
@[simp] theorem State.awake_d (s : State) : (s.awake).cpu.d = s.cpu.d := rfl
@[simp] theorem State.awake_e (s : State) : (s.awake).cpu.e = s.cpu.e := rfl
@[simp] theorem State.awake_h (s : State) : (s.awake).cpu.h = s.cpu.h := rfl
@[simp] theorem State.awake_l (s : State) : (s.awake).cpu.l = s.cpu.l := rfl
@[simp] theorem State.awake_sp (s : State) : (s.awake).cpu.sp = s.cpu.sp := rfl
@[simp] theorem State.awake_pc (s : State) : (s.awake).cpu.pc = s.cpu.pc := rfl
@[simp] theorem State.awake_ime (s : State) : (s.awake).cpu.ime = s.cpu.ime := rfl
@[simp] theorem State.awake_halted (s : State) : (s.awake).cpu.halted = false := rfl
@[simp] theorem State.awake_imePending (s : State) : (s.awake).cpu.imePending = s.cpu.imePending := rfl
@[simp] theorem State.awake_haltBug (s : State) : (s.awake).cpu.haltBug = s.cpu.haltBug := rfl
@[simp] theorem State.awake_fault (s : State) : (s.awake).cpu.fault = s.cpu.fault := rfl
@[simp] theorem State.awake_ifReg (s : State) : (s.awake).ifReg = s.ifReg := rfl
@[simp] theorem State.awake_ie (s : State) : (s.awake).ie = s.ie := rfl
@[simp] theorem State.awake_vram (s : State) : (s.awake).vram = s.vram := rfl
@[simp] theorem State.awake_wram (s : State) : (s.awake).wram = s.wram := rfl
@[simp] theorem State.awake_oam (s : State) : (s.awake).oam = s.oam := rfl
@[simp] theorem State.awake_hram (s : State) : (s.awake).hram = s.hram := rfl
@[simp] theorem State.awake_timer (s : State) : (s.awake).timer = s.timer := rfl
@[simp] theorem State.awake_dma (s : State) : (s.awake).dma = s.dma := rfl
@[simp] theorem State.awake_ppu (s : State) : (s.awake).ppu = s.ppu := rfl
@[simp] theorem State.awake_serial (s : State) : (s.awake).serial = s.serial := rfl
@[simp] theorem State.awake_joypad (s : State) : (s.awake).joypad = s.joypad := rfl
@[simp] theorem State.awake_cart (s : State) : (s.awake).cart = s.cart := rfl
@[simp] theorem State.awake_params (s : State) : (s.awake).params = s.params := rfl
@[simp] theorem State.awake_inputs (s : State) : (s.awake).inputs = s.inputs := rfl
@[simp] theorem State.awake_cycles (s : State) : (s.awake).cycles = s.cycles := rfl
@[simp] theorem State.awake_apuSeq (s : State) : (s.awake).apuSeq = s.apuSeq := rfl

/-! `took`, `request`, `withPpu` -/

@[simp] theorem State.took_cpu (s : State) (n : Nat) : (s.took n).cpu = s.cpu := rfl
@[simp] theorem State.took_ifReg (s : State) (n : Nat) : (s.took n).ifReg = s.ifReg := rfl
@[simp] theorem State.took_ie (s : State) (n : Nat) : (s.took n).ie = s.ie := rfl
@[simp] theorem State.took_vram (s : State) (n : Nat) : (s.took n).vram = s.vram := rfl
@[simp] theorem State.took_wram (s : State) (n : Nat) : (s.took n).wram = s.wram := rfl
@[simp] theorem State.took_oam (s : State) (n : Nat) : (s.took n).oam = s.oam := rfl
@[simp] theorem State.took_hram (s : State) (n : Nat) : (s.took n).hram = s.hram := rfl
@[simp] theorem State.took_timer (s : State) (n : Nat) : (s.took n).timer = s.timer := rfl
@[simp] theorem State.took_dma (s : State) (n : Nat) : (s.took n).dma = s.dma := rfl
@[simp] theorem State.took_ppu (s : State) (n : Nat) : (s.took n).ppu = s.ppu := rfl
@[simp] theorem State.took_serial (s : State) (n : Nat) : (s.took n).serial = s.serial := rfl
@[simp] theorem State.took_joypad (s : State) (n : Nat) : (s.took n).joypad = s.joypad := rfl
@[simp] theorem State.took_cart (s : State) (n : Nat) : (s.took n).cart = s.cart := rfl
@[simp] theorem State.took_params (s : State) (n : Nat) : (s.took n).params = s.params := rfl
@[simp] theorem State.took_inputs (s : State) (n : Nat) : (s.took n).inputs = s.inputs := rfl
@[simp] theorem State.took_cycles (s : State) (n : Nat) : (s.took n).cycles = n := rfl
@[simp] theorem State.took_apuSeq (s : State) (n : Nat) : (s.took n).apuSeq = s.apuSeq := rfl

@[simp] theorem State.request_cpu (s : State) (i : BitVec 5) : (s.request i).cpu = s.cpu := rfl
@[simp] theorem State.request_ifReg (s : State) (i : BitVec 5) : (s.request i).ifReg = s.ifReg ||| i := rfl
@[simp] theorem State.request_ie (s : State) (i : BitVec 5) : (s.request i).ie = s.ie := rfl
@[simp] theorem State.request_vram (s : State) (i : BitVec 5) : (s.request i).vram = s.vram := rfl
@[simp] theorem State.request_wram (s : State) (i : BitVec 5) : (s.request i).wram = s.wram := rfl
@[simp] theorem State.request_oam (s : State) (i : BitVec 5) : (s.request i).oam = s.oam := rfl
@[simp] theorem State.request_hram (s : State) (i : BitVec 5) : (s.request i).hram = s.hram := rfl
@[simp] theorem State.request_timer (s : State) (i : BitVec 5) : (s.request i).timer = s.timer := rfl
@[simp] theorem State.request_dma (s : State) (i : BitVec 5) : (s.request i).dma = s.dma := rfl
@[simp] theorem State.request_ppu (s : State) (i : BitVec 5) : (s.request i).ppu = s.ppu := rfl
@[simp] theorem State.request_serial (s : State) (i : BitVec 5) : (s.request i).serial = s.serial := rfl
@[simp] theorem State.request_joypad (s : State) (i : BitVec 5) : (s.request i).joypad = s.joypad := rfl
@[simp] theorem State.request_cart (s : State) (i : BitVec 5) : (s.request i).cart = s.cart := rfl
@[simp] theorem State.request_params (s : State) (i : BitVec 5) : (s.request i).params = s.params := rfl
@[simp] theorem State.request_inputs (s : State) (i : BitVec 5) : (s.request i).inputs = s.inputs := rfl
@[simp] theorem State.request_cycles (s : State) (i : BitVec 5) : (s.request i).cycles = s.cycles := rfl
@[simp] theorem State.request_apuSeq (s : State) (i : BitVec 5) : (s.request i).apuSeq = s.apuSeq := rfl

@[simp] theorem State.withPpu_cpu (s : State) (p : Ppu) : (s.withPpu p).cpu = s.cpu := rfl
@[simp] theorem State.withPpu_ifReg (s : State) (p : Ppu) : (s.withPpu p).ifReg = s.ifReg := rfl
@[simp] theorem State.withPpu_ie (s : State) (p : Ppu) : (s.withPpu p).ie = s.ie := rfl
@[simp] theorem State.withPpu_vram (s : State) (p : Ppu) : (s.withPpu p).vram = s.vram := rfl
@[simp] theorem State.withPpu_wram (s : State) (p : Ppu) : (s.withPpu p).wram = s.wram := rfl
@[simp] theorem State.withPpu_oam (s : State) (p : Ppu) : (s.withPpu p).oam = s.oam := rfl
@[simp] theorem State.withPpu_hram (s : State) (p : Ppu) : (s.withPpu p).hram = s.hram := rfl
@[simp] theorem State.withPpu_timer (s : State) (p : Ppu) : (s.withPpu p).timer = s.timer := rfl
@[simp] theorem State.withPpu_dma (s : State) (p : Ppu) : (s.withPpu p).dma = s.dma := rfl
@[simp] theorem State.withPpu_ppu (s : State) (p : Ppu) : (s.withPpu p).ppu = p := rfl
@[simp] theorem State.withPpu_serial (s : State) (p : Ppu) : (s.withPpu p).serial = s.serial := rfl
@[simp] theorem State.withPpu_joypad (s : State) (p : Ppu) : (s.withPpu p).joypad = s.joypad := rfl
@[simp] theorem State.withPpu_cart (s : State) (p : Ppu) : (s.withPpu p).cart = s.cart := rfl
@[simp] theorem State.withPpu_params (s : State) (p : Ppu) : (s.withPpu p).params = s.params := rfl
@[simp] theorem State.withPpu_inputs (s : State) (p : Ppu) : (s.withPpu p).inputs = s.inputs := rfl
@[simp] theorem State.withPpu_cycles (s : State) (p : Ppu) : (s.withPpu p).cycles = s.cycles := rfl
@[simp] theorem State.withPpu_apuSeq (s : State) (p : Ppu) : (s.withPpu p).apuSeq = s.apuSeq := rfl

/-! Updates that depend on a register name: outside the CPU nothing changes. -/

@[simp] theorem State.setReg_ifReg (s : State) (r : Reg8) (v : Byte) : (s.setReg r v).ifReg = s.ifReg := by cases r <;> rfl
@[simp] theorem State.setReg_ie (s : State) (r : Reg8) (v : Byte) : (s.setReg r v).ie = s.ie := by cases r <;> rfl
@[simp] theorem State.setReg_vram (s : State) (r : Reg8) (v : Byte) : (s.setReg r v).vram = s.vram := by cases r <;> rfl
@[simp] theorem State.setReg_wram (s : State) (r : Reg8) (v : Byte) : (s.setReg r v).wram = s.wram := by cases r <;> rfl
@[simp] theorem State.setReg_oam (s : State) (r : Reg8) (v : Byte) : (s.setReg r v).oam = s.oam := by cases r <;> rfl
@[simp] theorem State.setReg_hram (s : State) (r : Reg8) (v : Byte) : (s.setReg r v).hram = s.hram := by cases r <;> rfl
@[simp] theorem State.setReg_timer (s : State) (r : Reg8) (v : Byte) : (s.setReg r v).timer = s.timer := by cases r <;> rfl
@[simp] theorem State.setReg_dma (s : State) (r : Reg8) (v : Byte) : (s.setReg r v).dma = s.dma := by cases r <;> rfl
@[simp] theorem State.setReg_ppu (s : State) (r : Reg8) (v : Byte) : (s.setReg r v).ppu = s.ppu := by cases r <;> rfl
@[simp] theorem State.setReg_serial (s : State) (r : Reg8) (v : Byte) : (s.setReg r v).serial = s.serial := by cases r <;> rfl
@[simp] theorem State.setReg_joypad (s : State) (r : Reg8) (v : Byte) : (s.setReg r v).joypad = s.joypad := by cases r <;> rfl
@[simp] theorem State.setReg_cart (s : State) (r : Reg8) (v : Byte) : (s.setReg r v).cart = s.cart := by cases r <;> rfl
@[simp] theorem State.setReg_params (s : State) (r : Reg8) (v : Byte) : (s.setReg r v).params = s.params := by cases r <;> rfl
@[simp] theorem State.setReg_inputs (s : State) (r : Reg8) (v : Byte) : (s.setReg r v).inputs = s.inputs := by cases r <;> rfl
@[simp] theorem State.setReg_cycles (s : State) (r : Reg8) (v : Byte) : (s.setReg r v).cycles = s.cycles := by cases r <;> rfl
@[simp] theorem State.setReg_apuSeq (s : State) (r : Reg8) (v : Byte) : (s.setReg r v).apuSeq = s.apuSeq := by cases r <;> rfl

@[simp] theorem State.setPair_ifReg (s : State) (p : Pair) (v : Word) : (s.setPair p v).ifReg = s.ifReg := by cases p <;> rfl
@[simp] theorem State.setPair_ie (s : State) (p : Pair) (v : Word) : (s.setPair p v).ie = s.ie := by cases p <;> rfl
@[simp] theorem State.setPair_vram (s : State) (p : Pair) (v : Word) : (s.setPair p v).vram = s.vram := by cases p <;> rfl
@[simp] theorem State.setPair_wram (s : State) (p : Pair) (v : Word) : (s.setPair p v).wram = s.wram := by cases p <;> rfl
@[simp] theorem State.setPair_oam (s : State) (p : Pair) (v : Word) : (s.setPair p v).oam = s.oam := by cases p <;> rfl
@[simp] theorem State.setPair_hram (s : State) (p : Pair) (v : Word) : (s.setPair p v).hram = s.hram := by cases p <;> rfl
@[simp] theorem State.setPair_timer (s : State) (p : Pair) (v : Word) : (s.setPair p v).timer = s.timer := by cases p <;> rfl
@[simp] theorem State.setPair_dma (s : State) (p : Pair) (v : Word) : (s.setPair p v).dma = s.dma := by cases p <;> rfl
@[simp] theorem State.setPair_ppu (s : State) (p : Pair) (v : Word) : (s.setPair p v).ppu = s.ppu := by cases p <;> rfl
@[simp] theorem State.setPair_serial (s : State) (p : Pair) (v : Word) : (s.setPair p v).serial = s.serial := by cases p <;> rfl
@[simp] theorem State.setPair_joypad (s : State) (p : Pair) (v : Word) : (s.setPair p v).joypad = s.joypad := by cases p <;> rfl
@[simp] theorem State.setPair_cart (s : State) (p : Pair) (v : Word) : (s.setPair p v).cart = s.cart := by cases p <;> rfl
@[simp] theorem State.setPair_params (s : State) (p : Pair) (v : Word) : (s.setPair p v).params = s.params := by cases p <;> rfl
@[simp] theorem State.setPair_inputs (s : State) (p : Pair) (v : Word) : (s.setPair p v).inputs = s.inputs := by cases p <;> rfl
@[simp] theorem State.setPair_cycles (s : State) (p : Pair) (v : Word) : (s.setPair p v).cycles = s.cycles := by cases p <;> rfl
@[simp] theorem State.setPair_apuSeq (s : State) (p : Pair) (v : Word) : (s.setPair p v).apuSeq = s.apuSeq := by cases p <;> rfl

@[simp] theorem State.setStackPair_ifReg (s : State) (q : StackPair) (v : Word) : (s.setStackPair q v).ifReg = s.ifReg := by cases q <;> rfl
@[simp] theorem State.setStackPair_ie (s : State) (q : StackPair) (v : Word) : (s.setStackPair q v).ie = s.ie := by cases q <;> rfl
@[simp] theorem State.setStackPair_vram (s : State) (q : StackPair) (v : Word) : (s.setStackPair q v).vram = s.vram := by cases q <;> rfl
@[simp] theorem State.setStackPair_wram (s : State) (q : StackPair) (v : Word) : (s.setStackPair q v).wram = s.wram := by cases q <;> rfl
@[simp] theorem State.setStackPair_oam (s : State) (q : StackPair) (v : Word) : (s.setStackPair q v).oam = s.oam := by cases q <;> rfl
@[simp] theorem State.setStackPair_hram (s : State) (q : StackPair) (v : Word) : (s.setStackPair q v).hram = s.hram := by cases q <;> rfl
@[simp] theorem State.setStackPair_timer (s : State) (q : StackPair) (v : Word) : (s.setStackPair q v).timer = s.timer := by cases q <;> rfl
@[simp] theorem State.setStackPair_dma (s : State) (q : StackPair) (v : Word) : (s.setStackPair q v).dma = s.dma := by cases q <;> rfl
@[simp] theorem State.setStackPair_ppu (s : State) (q : StackPair) (v : Word) : (s.setStackPair q v).ppu = s.ppu := by cases q <;> rfl
@[simp] theorem State.setStackPair_serial (s : State) (q : StackPair) (v : Word) : (s.setStackPair q v).serial = s.serial := by cases q <;> rfl
@[simp] theorem State.setStackPair_joypad (s : State) (q : StackPair) (v : Word) : (s.setStackPair q v).joypad = s.joypad := by cases q <;> rfl
@[simp] theorem State.setStackPair_cart (s : State) (q : StackPair) (v : Word) : (s.setStackPair q v).cart = s.cart := by cases q <;> rfl
@[simp] theorem State.setStackPair_params (s : State) (q : StackPair) (v : Word) : (s.setStackPair q v).params = s.params := by cases q <;> rfl
@[simp] theorem State.setStackPair_inputs (s : State) (q : StackPair) (v : Word) : (s.setStackPair q v).inputs = s.inputs := by cases q <;> rfl
@[simp] theorem State.setStackPair_cycles (s : State) (q : StackPair) (v : Word) : (s.setStackPair q v).cycles = s.cycles := by cases q <;> rfl
@[simp] theorem State.setStackPair_apuSeq (s : State) (q : StackPair) (v : Word) : (s.setStackPair q v).apuSeq = s.apuSeq := by cases q <;> rfl

@[simp] theorem State.setRegAlu_ifReg (s : State) (r : Reg8) (o : Alu) : (s.setRegAlu r o).ifReg = s.ifReg := by cases r <;> rfl
@[simp] theorem State.setRegAlu_ie (s : State) (r : Reg8) (o : Alu) : (s.setRegAlu r o).ie = s.ie := by cases r <;> rfl
@[simp] theorem State.setRegAlu_vram (s : State) (r : Reg8) (o : Alu) : (s.setRegAlu r o).vram = s.vram := by cases r <;> rfl
@[simp] theorem State.setRegAlu_wram (s : State) (r : Reg8) (o : Alu) : (s.setRegAlu r o).wram = s.wram := by cases r <;> rfl
@[simp] theorem State.setRegAlu_oam (s : State) (r : Reg8) (o : Alu) : (s.setRegAlu r o).oam = s.oam := by cases r <;> rfl
@[simp] theorem State.setRegAlu_hram (s : State) (r : Reg8) (o : Alu) : (s.setRegAlu r o).hram = s.hram := by cases r <;> rfl
@[simp] theorem State.setRegAlu_timer (s : State) (r : Reg8) (o : Alu) : (s.setRegAlu r o).timer = s.timer := by cases r <;> rfl
@[simp] theorem State.setRegAlu_dma (s : State) (r : Reg8) (o : Alu) : (s.setRegAlu r o).dma = s.dma := by cases r <;> rfl
@[simp] theorem State.setRegAlu_ppu (s : State) (r : Reg8) (o : Alu) : (s.setRegAlu r o).ppu = s.ppu := by cases r <;> rfl
@[simp] theorem State.setRegAlu_serial (s : State) (r : Reg8) (o : Alu) : (s.setRegAlu r o).serial = s.serial := by cases r <;> rfl
@[simp] theorem State.setRegAlu_joypad (s : State) (r : Reg8) (o : Alu) : (s.setRegAlu r o).joypad = s.joypad := by cases r <;> rfl
@[simp] theorem State.setRegAlu_cart (s : State) (r : Reg8) (o : Alu) : (s.setRegAlu r o).cart = s.cart := by cases r <;> rfl
@[simp] theorem State.setRegAlu_params (s : State) (r : Reg8) (o : Alu) : (s.setRegAlu r o).params = s.params := by cases r <;> rfl
@[simp] theorem State.setRegAlu_inputs (s : State) (r : Reg8) (o : Alu) : (s.setRegAlu r o).inputs = s.inputs := by cases r <;> rfl
@[simp] theorem State.setRegAlu_cycles (s : State) (r : Reg8) (o : Alu) : (s.setRegAlu r o).cycles = s.cycles := by cases r <;> rfl
@[simp] theorem State.setRegAlu_apuSeq (s : State) (r : Reg8) (o : Alu) : (s.setRegAlu r o).apuSeq = s.apuSeq := by cases r <;> rfl

/-- A register reads back what was put into it. -/
@[simp] theorem State.reg_setReg_self (s : State) (r : Reg8) (v : Byte) : (s.setReg r v).reg r = v := by cases r <;> rfl

/-- Putting a value into one register leaves the others. -/
theorem State.reg_setReg_of_ne (s : State) {q r : Reg8} (v : Byte) (h : q ≠ r) : (s.setReg r v).reg q = s.reg q := by
  cases q <;> cases r <;> first | rfl | exact absurd rfl h

@[simp] theorem State.reg_setF (s : State) (v : Byte) (r : Reg8) : (s.setF v).reg r = s.reg r := by cases r <;> rfl
@[simp] theorem State.reg_took (s : State) (n : Nat) (r : Reg8) : (s.took n).reg r = s.reg r := by cases r <;> rfl
@[simp] theorem State.reg_setPc (s : State) (v : Word) (r : Reg8) : (s.setPc v).reg r = s.reg r := by cases r <;> rfl
@[simp] theorem State.reg_setSp (s : State) (v : Word) (r : Reg8) : (s.setSp v).reg r = s.reg r := by cases r <;> rfl

/-- `setReg` writes nothing of the CPU but the seven registers. -/
@[simp] theorem State.setReg_f (s : State) (r : Reg8) (v : Byte) : (s.setReg r v).cpu.f = s.cpu.f := by cases r <;> rfl
@[simp] theorem State.setReg_sp (s : State) (r : Reg8) (v : Byte) : (s.setReg r v).cpu.sp = s.cpu.sp := by cases r <;> rfl
@[simp] theorem State.setReg_pc (s : State) (r : Reg8) (v : Byte) : (s.setReg r v).cpu.pc = s.cpu.pc := by cases r <;> rfl
@[simp] theorem State.setReg_ime (s : State) (r : Reg8) (v : Byte) : (s.setReg r v).cpu.ime = s.cpu.ime := by
  cases r <;> rfl
@[simp] theorem State.setReg_halted (s : State) (r : Reg8) (v : Byte) : (s.setReg r v).cpu.halted = s.cpu.halted := by
  cases r <;> rfl
@[simp] theorem State.setReg_imePending (s : State) (r : Reg8) (v : Byte) :
    (s.setReg r v).cpu.imePending = s.cpu.imePending := by cases r <;> rfl
@[simp] theorem State.setReg_haltBug (s : State) (r : Reg8) (v : Byte) : (s.setReg r v).cpu.haltBug = s.cpu.haltBug := by
  cases r <;> rfl
@[simp] theorem State.setReg_fault (s : State) (r : Reg8) (v : Byte) : (s.setReg r v).cpu.fault = s.cpu.fault := by
  cases r <;> rfl

end Sys2Proof.Machine
end

