-- ==== Sys2Proof/Laws/Ops.lean ====
section
/-! SUPPORT. What each shared operation over memory and the stack can do, said once. -/

namespace Sys2Proof.Machine

/-! ### Fields no write reaches -/

@[simp] theorem State.startDma_cpu (v : Byte) (s : State) : (s.startDma v).cpu = s.cpu := rfl
@[simp] theorem ioWrite_cpu (s : State) (r : IoReg) (v : Byte) : (ioWrite s r v).cpu = s.cpu := by cases r <;> rfl
@[simp] theorem State.rawWrite_cpu (s : State) (a : Word) (v : Byte) : (s.rawWrite a v).cpu = s.cpu := by
  unfold State.rawWrite; split <;> simp
@[simp] theorem State.memWrite_cpu (s : State) (a : Word) (v : Byte) : (s.memWrite a v).cpu = s.cpu := by
  unfold State.memWrite; split <;> simp
@[simp] theorem State.startDma_params (v : Byte) (s : State) : (s.startDma v).params = s.params := rfl
@[simp] theorem ioWrite_params (s : State) (r : IoReg) (v : Byte) : (ioWrite s r v).params = s.params := by cases r <;> rfl
@[simp] theorem State.rawWrite_params (s : State) (a : Word) (v : Byte) : (s.rawWrite a v).params = s.params := by
  unfold State.rawWrite; split <;> simp
@[simp] theorem State.memWrite_params (s : State) (a : Word) (v : Byte) : (s.memWrite a v).params = s.params := by
  unfold State.memWrite; split <;> simp
@[simp] theorem State.startDma_inputs (v : Byte) (s : State) : (s.startDma v).inputs = s.inputs := rfl
@[simp] theorem ioWrite_inputs (s : State) (r : IoReg) (v : Byte) : (ioWrite s r v).inputs = s.inputs := by cases r <;> rfl
@[simp] theorem State.rawWrite_inputs (s : State) (a : Word) (v : Byte) : (s.rawWrite a v).inputs = s.inputs := by
  unfold State.rawWrite; split <;> simp
@[simp] theorem State.memWrite_inputs (s : State) (a : Word) (v : Byte) : (s.memWrite a v).inputs = s.inputs := by
  unfold State.memWrite; split <;> simp
@[simp] theorem State.startDma_cycles (v : Byte) (s : State) : (s.startDma v).cycles = s.cycles := rfl
@[simp] theorem ioWrite_cycles (s : State) (r : IoReg) (v : Byte) : (ioWrite s r v).cycles = s.cycles := by cases r <;> rfl
@[simp] theorem State.rawWrite_cycles (s : State) (a : Word) (v : Byte) : (s.rawWrite a v).cycles = s.cycles := by
  unfold State.rawWrite; split <;> simp
@[simp] theorem State.memWrite_cycles (s : State) (a : Word) (v : Byte) : (s.memWrite a v).cycles = s.cycles := by
  unfold State.memWrite; split <;> simp
@[simp] theorem State.startDma_apuSeq (v : Byte) (s : State) : (s.startDma v).apuSeq = s.apuSeq := rfl
@[simp] theorem ioWrite_apuSeq (s : State) (r : IoReg) (v : Byte) : (ioWrite s r v).apuSeq = s.apuSeq := by cases r <;> rfl
@[simp] theorem State.rawWrite_apuSeq (s : State) (a : Word) (v : Byte) : (s.rawWrite a v).apuSeq = s.apuSeq := by
  unfold State.rawWrite; split <;> simp
@[simp] theorem State.memWrite_apuSeq (s : State) (a : Word) (v : Byte) : (s.memWrite a v).apuSeq = s.apuSeq := by
  unfold State.memWrite; split <;> simp

@[simp] theorem cartWrite_rom (c : Cart) (a : Nat) (v : Byte) : (cartWrite c a v).rom = c.rom := rfl
@[simp] theorem cartWrite_config (c : Cart) (a : Nat) (v : Byte) : (cartWrite c a v).config = c.config := rfl
@[simp] theorem cartWrite_eram (c : Cart) (a : Nat) (v : Byte) : (cartWrite c a v).eram = c.eram := rfl
@[simp] theorem cartWriteRam_rom (c : Cart) (o : Nat) (v : Byte) : (cartWriteRam c o v).rom = c.rom := by
  unfold cartWriteRam; split <;> rfl
@[simp] theorem cartWriteRam_config (c : Cart) (o : Nat) (v : Byte) : (cartWriteRam c o v).config = c.config := by
  unfold cartWriteRam; split <;> rfl
@[simp] theorem cartAdvance_rom (n : Nat) (c : Cart) : (cartAdvance n c).rom = c.rom := by
  unfold cartAdvance; split <;> (try split) <;> rfl
@[simp] theorem cartAdvance_config (n : Nat) (c : Cart) : (cartAdvance n c).config = c.config := by
  unfold cartAdvance; split <;> (try split) <;> rfl
@[simp] theorem cartAdvance_eram (n : Nat) (c : Cart) : (cartAdvance n c).eram = c.eram := by
  unfold cartAdvance; split <;> (try split) <;> rfl

@[simp] theorem ioWrite_cart (s : State) (r : IoReg) (v : Byte) : (ioWrite s r v).cart = s.cart := by cases r <;> rfl

/-- R440: no write reaches ROM. -/
@[simp] theorem State.memWrite_rom (s : State) (a : Word) (v : Byte) : (s.memWrite a v).cart.rom = s.cart.rom := by
  unfold State.memWrite State.rawWrite; split <;> (try split) <;> simp
@[simp] theorem State.memWrite_config (s : State) (a : Word) (v : Byte) :
    (s.memWrite a v).cart.config = s.cart.config := by
  unfold State.memWrite State.rawWrite; split <;> (try split) <;> simp

/-! ### Reads and writes see no more of a state than its blocks: the CPU and `cycles` may differ -/

theorem State.rawRead_cpu (s : State) (c : Cpu) (n : Nat) (k : Access) (a : Word) :
    ({ s with cpu := c, cycles := n } : State).rawRead k a = s.rawRead k a := rfl
theorem State.isBlocked_cpu (s : State) (c : Cpu) (n : Nat) (a : Word) :
    ({ s with cpu := c, cycles := n } : State).isBlocked a = s.isBlocked a := rfl
theorem State.memRead_cpu (s : State) (c : Cpu) (n : Nat) (k : Access) (a : Word) :
    ({ s with cpu := c, cycles := n } : State).memRead k a = s.memRead k a := rfl

theorem dmaCopy_cpu (s : State) (c : Cpu) (n : Nat) (page : Byte) (j : Nat) (oam : Memory) :
    dmaCopy { s with cpu := c, cycles := n } page j oam = dmaCopy s page j oam := by
  induction j with
  | zero => rfl
  | succ j ih => simp only [dmaCopy, ih, State.rawRead_cpu]

theorem oamCopy_cpu (s : State) (c : Cpu) (n : Nat) (page : Byte) :
    oamCopy { s with cpu := c, cycles := n } page = oamCopy s page := by
  unfold oamCopy
  generalize 160 = m
  exact dmaCopy_cpu s c n page m s.oam

theorem ioWrite_cpu_update (s : State) (c : Cpu) (n : Nat) (r : IoReg) (v : Byte) :
    ioWrite { s with cpu := c, cycles := n } r v = { ioWrite s r v with cpu := c, cycles := n } := by
  cases r
  case dma =>
    simp only [ioWrite, State.startDma]
    rw [oamCopy_cpu { s with dma := { s.dma with page := v } } c n]
  all_goals rfl

/-- A write and an update of the CPU commute. -/
theorem State.memWrite_cpu_update (s : State) (c : Cpu) (n : Nat) (a : Word) (v : Byte) :
    ({ s with cpu := c, cycles := n } : State).memWrite a v = { s.memWrite a v with cpu := c, cycles := n } := by
  unfold State.memWrite
  rw [State.isBlocked_cpu]
  split
  · rfl
  · unfold State.rawWrite
    split
    case h_7 => exact ioWrite_cpu_update s c n _ v
    all_goals rfl

/-- A state is what its blocks and its CPU are. -/
theorem State.with_own_cpu (s : State) : { s with cpu := s.cpu, cycles := s.cycles } = s := rfl

theorem State.memWrite_setSp (s : State) (p a : Word) (v : Byte) :
    (s.setSp p).memWrite a v = { s.memWrite a v with cpu := { s.cpu with sp := p } } := by
  have h := State.memWrite_cpu_update s { s.cpu with sp := p } s.cycles a v
  have hc := State.memWrite_cycles s a v
  rw [show s.setSp p = { s with cpu := { s.cpu with sp := p }, cycles := s.cycles } from rfl, h, ← hc]

theorem State.memWrite_of_eq {s u : State} {c : Cpu} {n : Nat} (h : u = { s with cpu := c, cycles := n }) (a : Word)
    (v : Byte) : u.memWrite a v = { s.memWrite a v with cpu := c, cycles := n } := by
  subst h; exact State.memWrite_cpu_update s c n a v

/-- `Push16` is two stores and SP moved by 2 (R10, R80). -/
theorem State.push16_eq (s : State) (v : Word) :
    s.push16 v =
      { (s.memWrite (s.cpu.sp - 1) (hiByte v)).memWrite (s.cpu.sp - 2) (loByte v) with
        cpu := { s.cpu with sp := s.cpu.sp - 2 }, cycles := s.cycles } := by
  have h2 : s.cpu.sp - 1 - 1 = s.cpu.sp - 2 := by bv_omega
  have h1 : (s.setSp (s.cpu.sp - 1)).memWrite (s.cpu.sp - 1) (hiByte v) =
      { s.memWrite (s.cpu.sp - 1) (hiByte v) with cpu := { s.cpu with sp := s.cpu.sp - 1 }, cycles := s.cycles } :=
    State.memWrite_of_eq rfl _ _
  rw [State.push16, h1]
  change State.memWrite (State.setSp _ (s.cpu.sp - 1 - 1)) (s.cpu.sp - 1 - 1) (loByte v) = _
  rw [h2]
  exact State.memWrite_of_eq (s := s.memWrite (s.cpu.sp - 1) (hiByte v)) (c := { s.cpu with sp := s.cpu.sp - 2 })
    (n := s.cycles) rfl _ _

@[simp] theorem State.push16_sp (s : State) (v : Word) : (s.push16 v).cpu.sp = s.cpu.sp - 2 := by rw [State.push16_eq]
@[simp] theorem State.push16_cycles (s : State) (v : Word) : (s.push16 v).cycles = s.cycles := by rw [State.push16_eq]
@[simp] theorem State.push16_params (s : State) (v : Word) : (s.push16 v).params = s.params := by rw [State.push16_eq]; simp

/-! ### Who owns an address, R61 -/

theorem ownerOf_rom {a : Word} (h : a.toNat < 0x8000) : ownerOf a = .rom a.toNat := by simp [ownerOf, h]
theorem ownerOf_vram {a : Word} (h1 : 0x8000 ≤ a.toNat) (h2 : a.toNat < 0xA000) :
    ownerOf a = .vram (a.toNat - 0x8000) := by
  have : ¬ a.toNat < 0x8000 := by omega
  simp [ownerOf, this, h2]
theorem ownerOf_eram {a : Word} (h1 : 0xA000 ≤ a.toNat) (h2 : a.toNat < 0xC000) :
    ownerOf a = .eram (a.toNat - 0xA000) := by
  have e1 : ¬ a.toNat < 0x8000 := by omega
  have e2 : ¬ a.toNat < 0xA000 := by omega
  simp [ownerOf, e1, e2, h2]
theorem ownerOf_wram {a : Word} (h1 : 0xC000 ≤ a.toNat) (h2 : a.toNat < 0xE000) :
    ownerOf a = .wram (a.toNat - 0xC000) := by
  have e1 : ¬ a.toNat < 0x8000 := by omega
  have e2 : ¬ a.toNat < 0xA000 := by omega
  have e3 : ¬ a.toNat < 0xC000 := by omega
  simp [ownerOf, e1, e2, e3, h2]
theorem ownerOf_mirror {a : Word} (h1 : 0xE000 ≤ a.toNat) (h2 : a.toNat < 0xFE00) :
    ownerOf a = .wram (a.toNat - 0xE000) := by
  have e1 : ¬ a.toNat < 0x8000 := by omega
  have e2 : ¬ a.toNat < 0xA000 := by omega
  have e3 : ¬ a.toNat < 0xC000 := by omega
  have e4 : ¬ a.toNat < 0xE000 := by omega
  simp [ownerOf, e1, e2, e3, e4, h2]
theorem ownerOf_oam {a : Word} (h1 : 0xFE00 ≤ a.toNat) (h2 : a.toNat < 0xFEA0) :
    ownerOf a = .oam (a.toNat - 0xFE00) := by
  have e1 : ¬ a.toNat < 0x8000 := by omega
  have e2 : ¬ a.toNat < 0xA000 := by omega
  have e3 : ¬ a.toNat < 0xC000 := by omega
  have e4 : ¬ a.toNat < 0xE000 := by omega
  have e5 : ¬ a.toNat < 0xFE00 := by omega
  simp [ownerOf, e1, e2, e3, e4, e5, h2]
theorem ownerOf_nobody {a : Word} (h1 : 0xFEA0 ≤ a.toNat) (h2 : a.toNat < 0xFF00) : ownerOf a = .nobody := by
  have e1 : ¬ a.toNat < 0x8000 := by omega
  have e2 : ¬ a.toNat < 0xA000 := by omega
  have e3 : ¬ a.toNat < 0xC000 := by omega
  have e4 : ¬ a.toNat < 0xE000 := by omega
  have e5 : ¬ a.toNat < 0xFE00 := by omega
  have e6 : ¬ a.toNat < 0xFEA0 := by omega
  simp [ownerOf, e1, e2, e3, e4, e5, e6, h2]
theorem ownerOf_hram {a : Word} (h1 : 0xFF80 ≤ a.toNat) (h2 : a.toNat ≤ 0xFFFE) :
    ownerOf a = .hram (a.toNat - 0xFF80) := by
  have e1 : ¬ a.toNat < 0x8000 := by omega
  have e2 : ¬ a.toNat < 0xA000 := by omega
  have e3 : ¬ a.toNat < 0xC000 := by omega
  have e4 : ¬ a.toNat < 0xE000 := by omega
  have e5 : ¬ a.toNat < 0xFE00 := by omega
  have e6 : ¬ a.toNat < 0xFEA0 := by omega
  have e7 : ¬ a.toNat < 0xFF00 := by omega
  have e8 : ¬ a.toNat < 0xFF80 := by omega
  have e9 : a.toNat < 0xFFFF := by omega
  simp [ownerOf, e1, e2, e3, e4, e5, e6, e7, e8, e9]

/-- Only HRAM's addresses have an HRAM owner. -/
theorem ownerOf_eq_hram {a : Word} {off : Nat} (h : ownerOf a = .hram off) :
    0xFF80 ≤ a.toNat ∧ a.toNat ≤ 0xFFFE ∧ off = a.toNat - 0xFF80 := by
  by_cases h1 : 0xFF80 ≤ a.toNat ∧ a.toNat ≤ 0xFFFE
  · rw [ownerOf_hram h1.1 h1.2] at h
    exact ⟨h1.1, h1.2, (Owner.hram.inj h).symm⟩
  · exfalso
    unfold ownerOf at h
    simp only [] at h
    by_cases e9 : a.toNat < 0xFF80
    · rw [if_pos e9] at h
      split at h
      · cases h
      · split at h
        · cases h
        · split at h
          · cases h
          · split at h
            · cases h
            · split at h
              · cases h
              · split at h
                · cases h
                · split at h <;> cases h
    · have h8 : ¬ a.toNat < 0x8000 := by omega
      have h7 : ¬ a.toNat < 0xA000 := by omega
      have h6 : ¬ a.toNat < 0xC000 := by omega
      have h5 : ¬ a.toNat < 0xE000 := by omega
      have h4 : ¬ a.toNat < 0xFE00 := by omega
      have h3 : ¬ a.toNat < 0xFEA0 := by omega
      have h2 : ¬ a.toNat < 0xFF00 := by omega
      have h0 : ¬ a.toNat < 0xFFFF := by omega
      rw [if_neg h8, if_neg h7, if_neg h6, if_neg h5, if_neg h4, if_neg h3, if_neg h2, if_neg e9, if_neg h0] at h
      cases h

/-! ### Blocking, R75, R76 -/

theorem State.memRead_blocked {s : State} {a : Word} (h : s.isBlocked a = true) (k : Access) : s.memRead k a = 0xFF := by
  simp [State.memRead, h]
theorem State.memRead_open {s : State} {a : Word} (h : s.isBlocked a = false) (k : Access) :
    s.memRead k a = s.rawRead k a := by simp [State.memRead, h]
theorem State.memWrite_blocked {s : State} {a : Word} (h : s.isBlocked a = true) (v : Byte) : s.memWrite a v = s := by
  simp [State.memWrite, h]
theorem State.memWrite_open {s : State} {a : Word} (h : s.isBlocked a = false) (v : Byte) :
    s.memWrite a v = s.rawWrite a v := by simp [State.memWrite, h]

/-- A running transfer blocks every address but HRAM's. -/
theorem State.isBlocked_of_dma {s : State} (h : s.dma.blocked = true) {a : Word} (ha : ∀ off, ownerOf a ≠ .hram off) :
    s.isBlocked a = true := by
  unfold State.isBlocked
  split <;> simp_all

/-! ### The canonical form of every array is kept by every write -/

theorem wf_dmaCopy (s : State) (page : Byte) (n : Nat) {oam : Memory} (h : oam.wf = true) :
    (dmaCopy s page n oam).wf = true := by
  induction n with
  | zero => exact h
  | succ n ih => exact Memory.wf_write ih _ _

theorem wf_oamCopy {s : State} (h : s.oam.wf = true) (page : Byte) : (oamCopy s page).wf = true := by
  unfold oamCopy
  generalize 160 = m
  exact wf_dmaCopy s page m h

theorem wf_cartWriteRam {c : Cart} (h : c.eram.wf = true) (off : Nat) (v : Byte) : (cartWriteRam c off v).eram.wf = true := by
  unfold cartWriteRam
  split
  · exact h
  · exact Memory.wf_write h _ _
  · exact Memory.wf_write h _ _
  · exact h

theorem memWf_ioWrite {s : State} (h : s.memWf = true) (r : IoReg) (v : Byte) : (ioWrite s r v).memWf = true := by
  simp only [State.memWf, Bool.and_eq_true] at h
  obtain ⟨⟨⟨⟨⟨hv, hw⟩, ho⟩, hh⟩, hr⟩, he⟩ := h
  cases r
  case dma =>
    simp only [State.memWf, Bool.and_eq_true, ioWrite, State.startDma]
    exact ⟨⟨⟨⟨⟨hv, hw⟩, wf_oamCopy (s := { s with dma := { s.dma with page := v } }) ho v⟩, hh⟩, hr⟩, he⟩
  all_goals
    simp only [State.memWf, Bool.and_eq_true]
    exact ⟨⟨⟨⟨⟨hv, hw⟩, ho⟩, hh⟩, hr⟩, he⟩

theorem memWf_rawWrite {s : State} (h : s.memWf = true) (a : Word) (v : Byte) : (s.rawWrite a v).memWf = true := by
  have h' := h
  simp only [State.memWf, Bool.and_eq_true] at h
  obtain ⟨⟨⟨⟨⟨hv, hw⟩, ho⟩, hh⟩, hr⟩, he⟩ := h
  unfold State.rawWrite
  split
  case h_7 => exact memWf_ioWrite h' _ _
  all_goals simp only [State.memWf, Bool.and_eq_true, cartWriteRam_rom, cartWrite_rom, cartWrite_eram]
  case h_1 => exact ⟨⟨⟨⟨⟨hv, hw⟩, ho⟩, hh⟩, hr⟩, he⟩
  case h_2 => exact ⟨⟨⟨⟨⟨Memory.wf_write hv _ _, hw⟩, ho⟩, hh⟩, hr⟩, he⟩
  case h_3 => exact ⟨⟨⟨⟨⟨hv, hw⟩, ho⟩, hh⟩, hr⟩, wf_cartWriteRam he _ _⟩
  case h_4 => exact ⟨⟨⟨⟨⟨hv, Memory.wf_write hw _ _⟩, ho⟩, hh⟩, hr⟩, he⟩
  case h_5 => exact ⟨⟨⟨⟨⟨hv, hw⟩, Memory.wf_write ho _ _⟩, hh⟩, hr⟩, he⟩
  case h_6 => exact ⟨⟨⟨⟨⟨hv, hw⟩, ho⟩, hh⟩, hr⟩, he⟩
  case h_8 => exact ⟨⟨⟨⟨⟨hv, hw⟩, ho⟩, Memory.wf_write hh _ _⟩, hr⟩, he⟩
  case h_9 => exact ⟨⟨⟨⟨⟨hv, hw⟩, ho⟩, hh⟩, hr⟩, he⟩

/-- Every store keeps every array canonical. -/
theorem memWf_memWrite {s : State} (h : s.memWf = true) (a : Word) (v : Byte) : (s.memWrite a v).memWf = true := by
  unfold State.memWrite
  split
  · exact h
  · exact memWf_rawWrite h a v

/-- So does placing code from outside. -/
theorem memWf_placeByte {s : State} (h : s.memWf = true) (a : Word) (v : Byte) : (s.placeByte a v).memWf = true := by
  have h' := h
  simp only [State.memWf, Bool.and_eq_true] at h
  obtain ⟨⟨⟨⟨⟨hv, hw⟩, ho⟩, hh⟩, hr⟩, he⟩ := h
  unfold State.placeByte
  split
  case h_5 => exact h'
  all_goals simp only [State.memWf, Bool.and_eq_true]
  case h_1 => exact ⟨⟨⟨⟨⟨hv, hw⟩, ho⟩, hh⟩, Memory.wf_write hr _ _⟩, he⟩
  case h_2 => exact ⟨⟨⟨⟨⟨Memory.wf_write hv _ _, hw⟩, ho⟩, hh⟩, hr⟩, he⟩
  case h_3 => exact ⟨⟨⟨⟨⟨hv, Memory.wf_write hw _ _⟩, ho⟩, hh⟩, hr⟩, he⟩
  case h_4 => exact ⟨⟨⟨⟨⟨hv, hw⟩, ho⟩, Memory.wf_write hh _ _⟩, hr⟩, he⟩

/-- The machine right after reset lists no memory at all. -/
theorem memWf_reset : State.reset.memWf = true := by decide

end Sys2Proof.Machine
end

