-- ==== Sys2Proof/Laws/Blocks.lean ====
section
/-! SUPPORT. What the operations of the cartridge, the timer, the PPU, the serial port and OAM DMA keep. -/

namespace Sys2Proof.Machine

/-! ### Cartridge -/

/-- R467: a clock write keeps the bank-select state and the latched registers. -/
theorem rtcWrite_keeps (m : Mbc3) (sel : BitVec 4) (v : Byte) : (rtcWrite m sel v).ramEnable = m.ramEnable ∧ (rtcWrite m sel v).romBank = m.romBank ∧
  (rtcWrite m sel v).ramSel = m.ramSel ∧ (rtcWrite m sel v).latched = m.latched := by
  unfold rtcWrite; split <;> exact ⟨rfl, rfl, rfl, rfl⟩

/-- Only an MBC3 has a clock in its window. -/
theorem ramTarget_clock (c : Cart) (off : Nat) (sel : BitVec 4) (h : ramTarget c off = .clock sel) : ∃ m, c.mapper = .mbc3 m := by
  have hb : ∀ b, bankedCell c b off ≠ .clock sel := by intro b; unfold bankedCell; split <;> simp
  unfold ramTarget at h
  split at h
  · exact absurd h (hb _)
  · split at h
    · exact absurd h (hb _)
    · cases h
  · split at h <;> cases h
  · exact ⟨_, ‹_›⟩
  · split at h
    · exact absurd h (hb _)
    · cases h

theorem cartWriteRam_clock (c : Cart) (off : Nat) (v : Byte) (sel : BitVec 4) (h : ramTarget c off = .clock sel) : ∃ m, c.mapper = .mbc3 m ∧ cartWriteRam c off v = { c with mapper := .mbc3 (rtcWrite m sel v) } := by
  obtain ⟨m, hm⟩ := ramTarget_clock c off sel h
  refine ⟨m, hm, ?_⟩
  unfold cartWriteRam; rw [h]; simp only; rw [hm]; rfl

theorem ramTarget_congr (c d : Cart) (hm : d.mapper = c.mapper) (hc : d.config = c.config) (off : Nat) : ramTarget d off = ramTarget c off := by
  unfold ramTarget bankedCell; rw [hm, hc]

theorem ramTarget_rtcWrite (c : Cart) (m : Mbc3) (hm : c.mapper = .mbc3 m) (sel : BitVec 4) (v : Byte) (off : Nat) :
    ramTarget { c with mapper := .mbc3 (rtcWrite m sel v) } off = ramTarget c off := by
  obtain ⟨h1, h2, h3, h4⟩ := rtcWrite_keeps m sel v
  unfold ramTarget bankedCell
  rw [hm]; simp only [h1, h3]

theorem ramTarget_cell_nibble (c : Cart) (off off' : Nat) (i j : Nat) (h : ramTarget c off = .cell i) (h' : ramTarget c off' = .nibble j) : False := by
  have hb : ∀ b off j, bankedCell c b off ≠ .nibble j := by intro b off j; unfold bankedCell; split <;> simp
  unfold ramTarget at h h'
  cases hm : c.mapper <;> rw [hm] at h h' <;> simp only at h h'
  · exact hb _ _ _ h'
  · split at h' 
    · exact hb _ _ _ h'
    · cases h'
  · split at h <;> cases h
  · split at h'
    · split at h'
      · exact hb _ _ _ h'
      · split at h' <;> cases h'
    · cases h'
  · split at h' 
    · exact hb _ _ _ h'
    · cases h'

/-- A store through the window changes only what reads the same place (R444, R457, R466). -/
theorem cartReadRam_cartWriteRam_of_ne (c : Cart) (m n : Nat) (v : Byte) (h : ramTarget c m ≠ ramTarget c n) : cartReadRam (cartWriteRam c m v) n = cartReadRam c n := by
  cases hm : ramTarget c m with
  | closed => unfold cartWriteRam; rw [hm]
  | cell i =>
    have : cartWriteRam c m v = { c with eram := c.eram.write i v } := by unfold cartWriteRam; rw [hm]
    rw [this]
    unfold cartReadRam
    rw [ramTarget_congr c { c with eram := c.eram.write i v } rfl rfl n]
    cases hn : ramTarget c n with
    | closed => rfl
    | cell j => exact Memory.read_write_of_ne _ _ (by rintro rfl; exact h (hm.trans hn.symm))
    | nibble j => exact (ramTarget_cell_nibble c m n i j hm hn).elim
    | clock sel => rfl
  | nibble i =>
    have : cartWriteRam c m v = { c with eram := c.eram.write i (v &&& 0x0F) } := by unfold cartWriteRam; rw [hm]
    rw [this]
    unfold cartReadRam
    rw [ramTarget_congr c { c with eram := c.eram.write i (v &&& 0x0F) } rfl rfl n]
    cases hn : ramTarget c n with
    | closed => rfl
    | nibble j => exact congrArg (0xF0 ||| ·) (Memory.read_write_of_ne c.eram (a := i) (b := j) _ (by rintro rfl; exact h (hm.trans hn.symm)))
    | cell j => exact (ramTarget_cell_nibble c n m j i hn hm).elim
    | clock sel => rfl
  | clock sel =>
    obtain ⟨mb, hmb, he⟩ := cartWriteRam_clock c m v sel hm
    rw [he]
    unfold cartReadRam
    rw [ramTarget_rtcWrite c mb hmb]
    cases hn : ramTarget c n with
    | closed => rfl
    | nibble j => rfl
    | cell j => rfl
    | clock sel' => 
      simp only [hmb, mapperClockRead, (rtcWrite_keeps mb sel v).2.2.2]

theorem cartRead_cartWriteRam (c : Cart) (m n : Nat) (v : Byte) : cartRead (cartWriteRam c m v) n = cartRead c n := by
  cases hm : ramTarget c m with
  | closed => unfold cartWriteRam; rw [hm]
  | cell i => unfold cartWriteRam; rw [hm]; rfl
  | nibble i => unfold cartWriteRam; rw [hm]; rfl
  | clock sel =>
    obtain ⟨mb, hmb, he⟩ := cartWriteRam_clock c m v sel hm
    rw [he]
    unfold cartRead cartRomIndex
    rw [hmb]; simp only [(rtcWrite_keeps mb sel v).2.1]; rfl

theorem nonZero_ne (n : Nat) (hn : (1 : BitVec n) ≠ 0) (b : BitVec n) : nonZeroBank n b ≠ 0 := by
  unfold nonZeroBank; split
  · exact hn
  · assumption

/-! ### Reads and blocking -/

theorem State.memRead_congr {s t : State} (k : Access) (x : Word) (hb : t.isBlocked x = s.isBlocked x) (hr : t.rawRead k x = s.rawRead k x) : t.memRead k x = s.memRead k x := by
  unfold State.memRead; rw [hb, hr]

theorem State.isBlocked_congr {s t : State} (x : Word) (h1 : t.dma.blocked = s.dma.blocked) (h2 : ppuBlocksVram t = ppuBlocksVram s) (h3 : ppuBlocksOam t = ppuBlocksOam s) : t.isBlocked x = s.isBlocked x := by
  unfold State.isBlocked; rw [h1, h2, h3]

theorem State.memWrite_rom_range {s : State} {a : Word} (hd : s.dma.blocked = false) (ha : a.toNat < 0x8000) (v : Byte) : s.memWrite a v = { s with cart := cartWrite s.cart a.toNat v } := by
  have h := ownerOf_rom ha
  have hb : s.isBlocked a = false := by unfold State.isBlocked; rw [h]; exact hd
  rw [State.memWrite_open hb]; unfold State.rawWrite; rw [h]

theorem State.memRead_rom_range {s : State} {a : Word} (hd : s.dma.blocked = false) (ha : a.toNat < 0x8000) (k : Access) : s.memRead k a = cartRead s.cart a.toNat := by
  have h := ownerOf_rom ha
  have hb : s.isBlocked a = false := by unfold State.isBlocked; rw [h]; exact hd
  rw [State.memRead_open hb]; unfold State.rawRead; rw [h]

theorem ownerOf_div : ownerOf 0xFF04 = .io .div := by simp [ownerOf, ioRegAt]

theorem ownerOf_dma : ownerOf 0xFF46 = .io .dma := by simp [ownerOf, ioRegAt]

theorem ownerOf_lcdc : ownerOf 0xFF40 = .io .lcdc := by simp [ownerOf, ioRegAt]

theorem ownerOf_sc : ownerOf 0xFF02 = .io .sc := by simp [ownerOf, ioRegAt]

theorem State.memWrite_io (s : State) (hd : s.dma.blocked = false) (a : Word) (r : IoReg) (h : ownerOf a = .io r) (v : Byte) : s.memWrite a v = ioWrite s r v := by
  have hb : s.isBlocked a = false := by unfold State.isBlocked; rw [h]; exact hd
  rw [State.memWrite_open hb]; unfold State.rawWrite; rw [h]

/-- R371: a store leaves the DMA block alone or starts a transfer. -/
theorem State.memWrite_dma (s : State) (a : Word) (v : Byte) : (s.memWrite a v).dma = s.dma ∨ (s.memWrite a v).dma = { page := v, remaining := s.params.dmaCycles, blocked := true } := by
  unfold State.memWrite
  split
  · exact .inl rfl
  · unfold State.rawWrite
    split <;> try exact .inl rfl
    rename_i r h
    cases r <;> first | exact .inl rfl | exact .inr rfl

/-! ### Timer -/

theorem word_getLsbD (x : Word) (b : Nat) : x.getLsbD b = decide (x.toNat / 2 ^ b % 2 = 1) := by
  rw [BitVec.getLsbD, Nat.testBit_eq_decide_div_mod_eq]

theorem timerRun_add (a b : Nat) (x : Timer × Bool) : timerRun (a + b) x = timerRun b (timerRun a x) := by
  induction a generalizing x with
  | zero => simp [timerRun]
  | succ a ih =>
    obtain ⟨t, r⟩ := x
    rw [show a + 1 + b = (a + b) + 1 by omega]
    simp only [timerRun]; exact ih _

/-- R355: with the timer enabled TIMA ticks exactly when the low bits of the counter are all 1. -/
theorem timerCycle_of_bit (t : Timer) (b : Nat) (he : timerEnabled t.tac = true) (hs : selectedBit t.tac = b) (hb : b = 9 ∨ b = 3 ∨ b = 5 ∨ b = 7) :
   timerCycle t = if t.div.toNat % 2 ^ (b + 1) = 2 ^ (b + 1) - 1 then timaTick { t with div := t.div + 1 } else ({ t with div := t.div + 1 }, false) := by
  unfold timerCycle
  simp only [he, hs, word_getLsbD, BitVec.toNat_add]
  have := t.div.isLt
  have e : (true && decide (t.div.toNat / 2 ^ b % 2 = 1) && !decide ((t.div.toNat + BitVec.toNat (1 : Word)) % 2^16 / 2 ^ b % 2 = 1)) = decide (t.div.toNat % 2 ^ (b + 1) = 2 ^ (b + 1) - 1) := by
    rw [Bool.eq_iff_iff]
    rcases hb with rfl | rfl | rfl | rfl <;> simp <;> omega
  rw [e]; simp

/-- Up to the next edge only the counter moves. -/
theorem run_quiet (n b : Nat) (t : Timer) (r : Bool) (he : timerEnabled t.tac = true) (hs : selectedBit t.tac = b) (hb : b = 9 ∨ b = 3 ∨ b = 5 ∨ b = 7)
   (h : t.div.toNat % 2 ^ (b + 1) + n < 2 ^ (b + 1)) : timerRun n (t, r) = ({ t with div := t.div + BitVec.ofNat 16 n }, r) := by
  induction n generalizing t with
  | zero => simp [timerRun]
  | succ n ih =>
    simp only [timerRun]
    rw [timerCycle_of_bit t b he hs hb, if_neg (by omega)]
    simp only [Bool.or_false]
    rw [ih { t with div := t.div + 1 } he hs]
    · simp [BitVec.ofNat_add]; bv_omega
    · have := t.div.isLt
      simp only [BitVec.toNat_add]
      rcases hb with rfl | rfl | rfl | rfl <;> simp at h ⊢ <;> omega

theorem timaTick_keeps (t : Timer) : (timaTick t).1.tma = t.tma ∧ (timaTick t).1.tac = t.tac ∧ (timaTick t).1.div = t.div := by
  unfold timaTick; split <;> exact ⟨rfl, rfl, rfl⟩

theorem divWrite_keeps (t : Timer) : (divWrite t).1.tma = t.tma ∧ (divWrite t).1.tac = t.tac := by
  unfold divWrite; simp only; split
  · exact ⟨(timaTick_keeps _).1, (timaTick_keeps _).2.1⟩
  · exact ⟨rfl, rfl⟩

/-! ### Serial -/

theorem scWrite_sb (p : Serial) (v : Byte) : (scWrite p v).sb = p.sb := by
  unfold scWrite; simp only; split <;> (try split) <;> rfl

/-! ### OAM DMA -/

theorem dmaCopy_read (s : State) (page : Byte) (n : Nat) (oam : Memory) (hw : oam.wf = true) :
   (∀ k, k < n → (dmaCopy s page n oam).read k = s.rawRead .dma (dmaSource page k)) ∧ (∀ k, n ≤ k → (dmaCopy s page n oam).read k = oam.read k) := by
  induction n with
  | zero => exact ⟨fun k h => by omega, fun k _ => rfl⟩
  | succ n ih =>
    simp only [dmaCopy]
    constructor
    · intro k hk
      by_cases h : k = n
      · subst h; exact Memory.read_write_self (wf_dmaCopy s page _ hw) _ _
      · rw [Memory.read_write_of_ne _ _ h]; exact ih.1 k (by omega)
    · intro k hk
      rw [Memory.read_write_of_ne _ _ (by omega)]; exact ih.2 k (by omega)

/-- R371: OAM after the copy. -/
theorem oamCopy_read (s : State) (page : Byte) (hw : s.oam.wf = true) :
   (∀ k, k < 160 → (oamCopy s page).read k = s.rawRead .dma (dmaSource page k)) ∧ (∀ k, 160 ≤ k → (oamCopy s page).read k = s.oam.read k) := by
  unfold oamCopy
  generalize 160 = m
  exact dmaCopy_read s page m s.oam hw

/-! ### PPU -/

/-- R398, R399: the registers a write of LCDC keeps. -/
theorem lcdcWrite_keeps (v : Byte) (p : Ppu) : let q := lcdcWrite v p
   q.statEn = p.statEn ∧ q.scy = p.scy ∧ q.scx = p.scx ∧ q.lyc = p.lyc ∧ q.bgp = p.bgp ∧ q.obp0 = p.obp0 ∧ q.obp1 = p.obp1 ∧ q.wy = p.wy ∧ q.wx = p.wx := by
  unfold lcdcWrite
  simp only
  split
  · exact ⟨rfl, rfl, rfl, rfl, rfl, rfl, rfl, rfl, rfl⟩
  · split <;> exact ⟨rfl, rfl, rfl, rfl, rfl, rfl, rfl, rfl, rfl⟩

/-- R392: MODE3_LEN is between 172 and 289. -/
theorem computeMode3_range (pr : Params) (oam : Memory) (p : Ppu) : 172 ≤ computeMode3 pr oam p ∧ computeMode3 pr oam p ≤ 289 := by
  have : ∀ f n k w, 172 ≤ mode3Length f n k w ∧ mode3Length f n k w ≤ 289 := by
    intro f n k w
    unfold mode3Length clampMode3
    split
    · omega
    · split <;> omega
  exact this _ _ _ _

theorem endOfLine_lcdc (p : Ppu) : (endOfLine p).1.lcdc = p.lcdc := by
  unfold endOfLine
  simp only
  repeat' split
  all_goals rfl

/-- No dot writes LCDC. -/
theorem dotTransition_lcdc (pr : Params) (vram oam : Memory) (p : Ppu) : (dotTransition pr vram oam p).1.lcdc = p.lcdc := by
  have e : (if p.line = 153 ∧ p.lineDot = 4 then setLy 0 p else p).lcdc = p.lcdc := by split <;> rfl
  unfold dotTransition
  simp only
  split
  · split
    · rfl
    · split
      · rfl
      · split
        · exact endOfLine_lcdc p
        · rfl
  · generalize (if p.line = 153 ∧ p.lineDot = 4 then setLy 0 p else p) = q at e
    split
    · rw [endOfLine_lcdc]; exact e
    · exact e

/-- R400. -/
theorem statLevel_iff (p : Ppu) : statLevel p = true ↔ (p.statEn.getLsbD 0 = true ∧ p.mode = .hblank) ∨ (p.statEn.getLsbD 1 = true ∧ p.mode = .vblank) ∨
      (p.statEn.getLsbD 2 = true ∧ p.mode = .oamScan) ∨ (p.statEn.getLsbD 3 = true ∧ p.lycPulse = true) := by
  unfold statLevel
  simp [or_assoc]

theorem dotRequests_bits : ∀ a b : Bool, (dotRequests a b).getLsbD 0 = a ∧ (dotRequests a b).getLsbD 1 = b := by decide

end Sys2Proof.Machine
end

