-- ==== Sys2Proof/Laws/Cart.lean ====
section
/-! SUPPORT. The cartridge's windows seen from the bus, and its register values in the integers. -/

namespace Sys2Proof.Machine

/-! ### The window A000 to BFFF, R444 -/

/-- A store to the window reaches `CartWriteRam` and nothing else. -/
theorem State.memWrite_eram_range {s : State} {a : Word} (hd : s.dma.blocked = false) (h1 : 0xA000 ≤ a.toNat)
    (h2 : a.toNat ≤ 0xBFFF) (v : Byte) :
    s.memWrite a v = { s with cart := cartWriteRam s.cart (a.toNat - 0xA000) v } := by
  have h := ownerOf_eram h1 (by omega)
  have hb : s.isBlocked a = false := by unfold State.isBlocked; rw [h]; exact hd
  rw [State.memWrite_open hb]; unfold State.rawWrite; rw [h]

/-- A read of the window is `CartReadRam`. -/
theorem State.memRead_eram_range {s : State} {a : Word} (hd : s.dma.blocked = false) (h1 : 0xA000 ≤ a.toNat)
    (h2 : a.toNat ≤ 0xBFFF) (k : Access) : s.memRead k a = cartReadRam s.cart (a.toNat - 0xA000) := by
  have h := ownerOf_eram h1 (by omega)
  have hb : s.isBlocked a = false := by unfold State.isBlocked; rw [h]; exact hd
  rw [State.memRead_open hb]; unfold State.rawRead; rw [h]

/-- A closed window reads 0xFF. -/
theorem cartReadRam_closed {c : Cart} {off : Nat} (h : ramTarget c off = .closed) : cartReadRam c off = 0xFF := by
  unfold cartReadRam; rw [h]

/-- A closed window drops writes. -/
theorem cartWriteRam_closed {c : Cart} {off : Nat} (h : ramTarget c off = .closed) (v : Byte) : cartWriteRam c off v = c := by
  unfold cartWriteRam; rw [h]

theorem cartReadRam_cell {c : Cart} {off i : Nat} (h : ramTarget c off = .cell i) : cartReadRam c off = c.eram.read i := by
  unfold cartReadRam; rw [h]

theorem cartWriteRam_cell {c : Cart} {off i : Nat} (h : ramTarget c off = .cell i) (v : Byte) :
    cartWriteRam c off v = { c with eram := c.eram.write i v } := by
  unfold cartWriteRam; rw [h]

theorem cartReadRam_nibble {c : Cart} {off i : Nat} (h : ramTarget c off = .nibble i) :
    cartReadRam c off = 0xF0 ||| c.eram.read i := by
  unfold cartReadRam; rw [h]

theorem cartWriteRam_nibble {c : Cart} {off i : Nat} (h : ramTarget c off = .nibble i) (v : Byte) :
    cartWriteRam c off v = { c with eram := c.eram.write i (v &&& 0x0F) } := by
  unfold cartWriteRam; rw [h]

/-- R463: with the clock selected the window is its register. -/
theorem ramTarget_mbc3_clock {c : Cart} {m : Mbc3} (hm : c.mapper = .mbc3 m) (he : m.ramEnable = true)
    (hc : c.config.hasClock = true) (h8 : 8 ≤ m.ramSel.toNat) (hC : m.ramSel.toNat ≤ 12) (off : Nat) :
    ramTarget c off = .clock m.ramSel := by
  unfold ramTarget; rw [hm]; simp only [he, if_true]; rw [if_neg (by omega), if_pos ⟨h8, hC, hc⟩]

/-! ### Values in the integers, R451 to R475 -/

theorem ramEnableValue_spec : ∀ v : Byte, ramEnableValue v = (v.toNat % 16 == 10) := by decide +kernel

theorem nonZeroBank5_spec : ∀ v : Byte,
    nonZeroBank 5 (v.setWidth 5) = BitVec.ofNat 5 (if v.toNat % 32 = 0 then 1 else v.toNat % 32) := by decide +kernel

theorem nonZeroBank4_spec : ∀ v : Byte,
    nonZeroBank 4 (v.setWidth 4) = BitVec.ofNat 4 (if v.toNat % 16 = 0 then 1 else v.toNat % 16) := by decide +kernel

theorem nonZeroBank7_spec : ∀ v : Byte,
    nonZeroBank 7 (v.setWidth 7) = BitVec.ofNat 7 (if v.toNat % 128 = 0 then 1 else v.toNat % 128) := by decide +kernel

/-- R472, R475. -/
theorem mbc5RamBank_spec : ∀ (rumble : Bool) (v : Byte),
    (if rumble then (v &&& 0x07).setWidth 4 else v.setWidth 4) =
      BitVec.ofNat 4 (if rumble then v.toNat % 8 else v.toNat % 16) := by decide +kernel

/-- R457: what is stored of a byte in a 4-bit cell. -/
theorem mbc2Stored_spec : ∀ v : Byte, v &&& 0x0F = byteOf (v.toNat % 16) := by decide +kernel

/-- R457: what is read of a 4-bit cell. -/
theorem mbc2Shown_spec : ∀ v : Byte, 0xF0#8 ||| v = byteOf (240 + v.toNat % 16) := by decide +kernel

/-- R465: DH. -/
theorem rtcDh_spec (r : Rtc) : rtcDh r = byteOf (128 * bit r.carry + 64 * bit r.halt + bit r.day8) := by
  unfold rtcDh
  cases r.carry <;> cases r.halt <;> cases r.day8 <;> decide

end Sys2Proof.Machine
end

