-- ==== Sys2Proof/Laws/Encoding.lean ====
section
/-! SUPPORT. Byte halves, and the decoder on the words of the encoder. -/

namespace Sys2Proof.Machine

/-- A pair as a number (R8). -/
theorem toNat_joinBytes (hi lo : Byte) : (joinBytes hi lo).toNat = 256 * hi.toNat + lo.toNat := by
  unfold joinBytes
  rw [BitVec.toNat_append, ← Nat.shiftLeft_add_eq_or_of_lt lo.isLt, Nat.shiftLeft_eq]
  omega

theorem toNat_hiByte (w : Word) : (hiByte w).toNat = w.toNat / 256 := by
  unfold hiByte
  have := w.isLt
  simp [BitVec.extractLsb'_toNat, Nat.shiftRight_eq_div_pow]; omega

theorem toNat_loByte (w : Word) : (loByte w).toNat = w.toNat % 256 := by
  unfold loByte
  simp [BitVec.extractLsb'_toNat]

theorem joinBytes_hi_lo (w : Word) : joinBytes (hiByte w) (loByte w) = w := by
  apply BitVec.eq_of_toNat_eq
  rw [toNat_joinBytes, toNat_hiByte, toNat_loByte]; omega

theorem hiByte_joinBytes (hi lo : Byte) : hiByte (joinBytes hi lo) = hi := by
  apply BitVec.eq_of_toNat_eq
  rw [toNat_hiByte, toNat_joinBytes]; omega

theorem loByte_joinBytes (hi lo : Byte) : loByte (joinBytes hi lo) = lo := by
  apply BitVec.eq_of_toNat_eq
  rw [toNat_loByte, toNat_joinBytes]; omega

/-- Every byte, one at a time. -/
theorem byte_cases (P : Byte → Prop) (h : ∀ n : Fin 256, P (BitVec.ofFin n)) (b : Byte) : P b := h b.toFin

/-- A three-byte instruction at the head of a byte sequence. -/
theorem decodeBytes_3 (b c d : Byte) (rest : List Byte) (h : opcodeLength b = 3) :
   decodeBytes (b :: c :: d :: rest) = .ok (decode b c d, rest) := by
  simp [decodeBytes, h]

/-- An extended instruction at the head of a byte sequence (R104). -/
theorem decodeBytes_cb (op2 : Byte) (rest : List Byte) : decodeBytes (0xCB :: op2 :: rest) = .ok (decodeCb op2, rest) := rfl

theorem decodeCb_bitR : ∀ (b : BitVec 3) (r : Reg8), decodeCb (0x40 ||| bitField b ||| reg8Code r) = .bitR b r := by
  intro b r; revert b; cases r <;> decide

theorem decodeCb_resR : ∀ (b : BitVec 3) (r : Reg8), decodeCb (0x80 ||| bitField b ||| reg8Code r) = .resR b r := by
  intro b r; revert b; cases r <;> decide

theorem decodeCb_setR : ∀ (b : BitVec 3) (r : Reg8), decodeCb (0xC0 ||| bitField b ||| reg8Code r) = .setR b r := by
  intro b r; revert b; cases r <;> decide

theorem decodeCb_bitM : ∀ (b : BitVec 3), decodeCb (0x46 ||| bitField b) = .bitM b := by decide

theorem decodeCb_resM : ∀ (b : BitVec 3), decodeCb (0x86 ||| bitField b) = .resM b := by decide

theorem decodeCb_setM : ∀ (b : BitVec 3), decodeCb (0xC6 ||| bitField b) = .setM b := by decide

/-- R271. -/
theorem decode_rst : ∀ (t : BitVec 3) (b c : Byte), decode (0xC7 ||| atY (t.setWidth 8)) b c = .rst t ∧ opcodeLength (0xC7 ||| atY (t.setWidth 8)) = 1 := by
  intro t b c
  refine ⟨?_, ?_⟩
  · revert t
    have : ∀ t : BitVec 3, decodeX3 (0xC7 ||| atY (t.setWidth 8)) b (joinBytes c b) = .rst t ∧ fieldX (0xC7 ||| atY (t.setWidth 8)) = 3 := by
      intro t
      have h1 : fieldZ (0xC7 ||| atY (t.setWidth 8)) = 7 ∧ fieldY (0xC7 ||| atY (t.setWidth 8)) = t.toNat ∧ fieldX (0xC7 ||| atY (t.setWidth 8)) = 3 := by
        revert t; decide
      unfold decodeX3
      simp only [h1]
      simp
    intro t
    unfold decode
    rw [(this t).2]; exact (this t).1
  · revert t; decide

/-- R112: every instruction has at least one byte. -/
theorem opcodeLength_pos : ∀ b0 : Byte, 1 ≤ opcodeLength b0 := by decide +kernel

end Sys2Proof.Machine
end

