-- ==== Sys2Proof/Laws/Flags.lean ====
section
/-! SUPPORT. Every result and flag computation against its rule in the integers, one lemma per function. -/

namespace Sys2Proof.Machine

/-! ### Numbers -/

theorem byteOf_toNat (w : Word) : byteOf w.toNat = loByte w := by
  apply BitVec.eq_of_toNat_eq; rw [toNat_loByte]; simp [byteOf]

theorem byteOf_toNat_div (w : Word) : byteOf (w.toNat / 256) = hiByte w := by
  apply BitVec.eq_of_toNat_eq; rw [toNat_hiByte]; simp [byteOf]; have := w.isLt; omega

theorem mkF_eq_flagsByte : ∀ z n h c, mkF z n h c = flagsByte z n h c := by decide

theorem ofNat8_beq_zero (n : Nat) : (BitVec.ofNat 8 n == 0) = (n % 256 == 0) := by
  rw [Bool.eq_iff_iff]; simp [← BitVec.toNat_inj]

theorem byte_beq_zero (v : Byte) : (v == 0) = (v.toNat == 0) := by
  rw [Bool.eq_iff_iff]; simp [← BitVec.toNat_inj]

theorem bit_le (c : Bool) : bit c ≤ 1 := by cases c <;> decide

theorem ofNat_toNat_succ (w : Word) : BitVec.ofNat 16 (w.toNat + 1) = w + 1 := by
  rw [BitVec.ofNat_add]; simp

theorem ofNat_toNat_pred (w : Word) : BitVec.ofNat 16 (w.toNat + 65535) = w - 1 := by
  rw [BitVec.ofNat_add]; simp; bv_omega

theorem ofInt_add_sext16 (sp : Word) (e : Byte) : BitVec.ofInt 16 (sp.toNat + e.toInt) = sp + sext16 e := by
  unfold sext16
  rw [BitVec.ofInt_add, BitVec.ofInt_natCast, BitVec.ofNat_toNat]
  simp [BitVec.signExtend]

theorem ofNat_highPage (n : Byte) : BitVec.ofNat 16 (0xFF00 + n.toNat) = highPage n := by
  unfold highPage zext16
  apply BitVec.eq_of_toNat_eq
  simp [BitVec.toNat_add]

theorem ofNat_rstTarget : ∀ t : BitVec 3, BitVec.ofNat 16 (8 * t.toNat) = rstTarget t := by decide

theorem ofNat_hl (s : State) : BitVec.ofNat 16 (256 * s.cpu.h.toNat + s.cpu.l.toNat) = s.hl := by
  rw [← toNat_joinBytes]; simp; rfl

theorem condHolds_eq (s : State) (cc : Cond) : condHolds cc s.cpu.f = s.cond cc := by cases cc <;> rfl

theorem ofInt_relTarget (s : State) (e : Byte) : BitVec.ofInt 16 (s.cpu.pc.toNat + e.toInt) = s.relTarget e := ofInt_add_sext16 _ _

theorem ofNat_popValue (s : State) : BitVec.ofNat 16
      (256 * (s.memRead .dataHi (s.cpu.sp + 1)).toNat + (s.memRead .dataLo s.cpu.sp).toNat) = s.popValue := by
  rw [← toNat_joinBytes]; simp; rfl

theorem maskF_spec (b : Byte) : byteOf (16 * (b.toNat / 16)) = maskF b := by
  revert b; decide +kernel

/-! ### R181 to R192 -/

theorem aluAdc_val (a x : Byte) (c : Bool) : (aluAdc a x c).val = byteOf (a.toNat + x.toNat + bit c) := rfl

theorem aluAdc_f (a x : Byte) (c : Bool) : (aluAdc a x c).f = flagsByte ((a.toNat + x.toNat + bit c) % 256 == 0) false (a.toNat % 16 + x.toNat % 16 + bit c > 15) (a.toNat + x.toNat + bit c > 255) := by
  unfold aluAdc
  simp only [mkF_eq_flagsByte, ofNat8_beq_zero, lowNibble]; rfl

theorem aluSbc_val (a x : Byte) (c : Bool) : (aluSbc a x c).val = byteOf (a.toNat + 256 - (x.toNat + bit c)) := by
  unfold aluSbc byteOf
  apply BitVec.eq_of_toNat_eq
  have := a.isLt; have := x.isLt; have := bit_le c
  simp [BitVec.toNat_sub]
  omega

theorem aluSbc_f (a x : Byte) (c : Bool) : (aluSbc a x c).f = flagsByte ((a.toNat + 256 - (x.toNat + bit c)) % 256 == 0) true (a.toNat % 16 < x.toNat % 16 + bit c) (a.toNat < x.toNat + bit c) := by
  have h := aluSbc_val a x c
  have h2 : (aluSbc a x c).f = mkF ((aluSbc a x c).val == 0) true (decide (lowNibble a < lowNibble x + bit c)) (decide (a.toNat < x.toNat + bit c)) := rfl
  rw [h2, h]
  unfold byteOf
  simp only [mkF_eq_flagsByte, ofNat8_beq_zero, lowNibble]; rfl

theorem aluInc_val (v f : Byte) : (aluInc v f).val = byteOf (v.toNat + 1) := by
  unfold aluInc byteOf; apply BitVec.eq_of_toNat_eq; simp

theorem aluDec_val (v f : Byte) : (aluDec v f).val = byteOf (v.toNat + 255) := by
  unfold aluDec byteOf; apply BitVec.eq_of_toNat_eq; simp [BitVec.toNat_sub]; omega

theorem aluInc_f (v f : Byte) : (aluInc v f).f = flagsByte (v.toNat == 255) false (v.toNat % 16 == 15) (f.getLsbD 4) := by
  have : ∀ v : Byte, (v + 1 == 0) = (v.toNat == 255) := by decide +kernel
  unfold aluInc; simp only [mkF_eq_flagsByte, this]; rfl

theorem aluDec_f (v f : Byte) : (aluDec v f).f = flagsByte (v.toNat == 1) true (v.toNat % 16 == 0) (f.getLsbD 4) := by
  have : ∀ v : Byte, (v - 1 == 0) = (v.toNat == 1) := by decide +kernel
  unfold aluDec; simp only [mkF_eq_flagsByte, this]; rfl

theorem complement_spec : ∀ a : Byte, byteOf (255 - a.toNat) = ~~~a := by decide +kernel

/-! ### R230 to R245 -/

theorem rotLeft_spec : ∀ v : Byte, byteOf (2 * v.toNat + v.toNat / 128) = (rotLeft v).1 ∧ (v.toNat / 128 == 1) = (rotLeft v).2 := by decide +kernel

theorem rotRight_spec : ∀ v : Byte, byteOf (v.toNat / 2 + 128 * (v.toNat % 2)) = (rotRight v).1 ∧ (v.toNat % 2 == 1) = (rotRight v).2 := by decide +kernel

theorem rotLeftCarry_spec : ∀ (v : Byte) (c : Bool), byteOf (2 * v.toNat + bit c) = (rotLeftCarry v c).1 ∧ (v.toNat / 128 == 1) = (rotLeftCarry v c).2 := by decide +kernel

theorem rotRightCarry_spec : ∀ (v : Byte) (c : Bool), byteOf (v.toNat / 2 + 128 * bit c) = (rotRightCarry v c).1 ∧ (v.toNat % 2 == 1) = (rotRightCarry v c).2 := by decide +kernel

theorem shiftLeft_spec : ∀ (v : Byte), byteOf (2 * v.toNat) = (shiftLeft v).1 ∧ (v.toNat / 128 == 1) = (shiftLeft v).2 := by decide +kernel

theorem shiftRightArith_spec : ∀ (v : Byte), byteOf (v.toNat / 2 + 128 * (v.toNat / 128)) = (shiftRightArith v).1 ∧ (v.toNat % 2 == 1) = (shiftRightArith v).2 := by decide +kernel

theorem swapNibbles_spec : ∀ (v : Byte), byteOf (16 * (v.toNat % 16) + v.toNat / 16) = (swapNibbles v).1 ∧ false = (swapNibbles v).2 := by decide +kernel

theorem shiftRightLogic_spec : ∀ (v : Byte), byteOf (v.toNat / 2) = (shiftRightLogic v).1 ∧ (v.toNat % 2 == 1) = (shiftRightLogic v).2 := by decide +kernel

theorem bitFlags_spec (b : BitVec 3) (v f : Byte) : flagsByte (v.toNat / 2 ^ b.toNat % 2 == 0) false true (f.getLsbD 4) = bitFlags b v f := by
  have : ∀ (b : BitVec 3) (v : Byte), (v.toNat / 2 ^ b.toNat % 2 == 0) = !v.getLsbD b.toNat := by decide +kernel
  rw [this, ← mkF_eq_flagsByte]; rfl

theorem clearBit_spec : ∀ (b : BitVec 3) (v : Byte), byteOf (v.toNat - 2 ^ b.toNat * (v.toNat / 2 ^ b.toNat % 2)) = clearBit b.toNat v := by decide +kernel

theorem setBit_spec : ∀ (b : BitVec 3) (v : Byte), byteOf (v.toNat + 2 ^ b.toNat * (1 - v.toNat / 2 ^ b.toNat % 2)) = setBit b.toNat v := by decide +kernel

end Sys2Proof.Machine
end

