-- ==== Sys2Proof/Laws/PerInstr.lean ====
section
/-! SUPPORT. A law per instruction, over its syntax: the first byte of its encoding alone gives its length (R116). -/

namespace Sys2Proof.Laws.EncodedLength

open Sys2Proof

/-- R116: "From the first byte alone by rule R112", said of the instruction's own encoding. -/
def Statement (i : Instr) : Prop := (encode i).head?.map opcodeLength = some (instrLength i)

theorem ldRR (x : Reg8) (y : Reg8) : Statement (.ldRR x y) := by cases x <;> cases y <;> rfl
theorem ldRN (x : Reg8) (y : Byte) : Statement (.ldRN x y) := by cases x <;> rfl
theorem ldRM (x : Reg8) : Statement (.ldRM x) := by cases x <;> rfl
theorem ldMR (x : Reg8) : Statement (.ldMR x) := by cases x <;> rfl
theorem ldMN (x : Byte) : Statement (.ldMN x) := rfl
theorem ldABc : Statement .ldABc := rfl
theorem ldADe : Statement .ldADe := rfl
theorem ldBcA : Statement .ldBcA := rfl
theorem ldDeA : Statement .ldDeA := rfl
theorem ldANn (x : Word) : Statement (.ldANn x) := rfl
theorem ldNnA (x : Word) : Statement (.ldNnA x) := rfl
theorem ldhAC : Statement .ldhAC := rfl
theorem ldhCA : Statement .ldhCA := rfl
theorem ldhAN (x : Byte) : Statement (.ldhAN x) := rfl
theorem ldhNA (x : Byte) : Statement (.ldhNA x) := rfl
theorem ldAHli : Statement .ldAHli := rfl
theorem ldAHld : Statement .ldAHld := rfl
theorem ldHliA : Statement .ldHliA := rfl
theorem ldHldA : Statement .ldHldA := rfl
theorem ldRrNn (x : Pair) (y : Word) : Statement (.ldRrNn x y) := by cases x <;> rfl
theorem ldNnSp (x : Word) : Statement (.ldNnSp x) := rfl
theorem ldSpHl : Statement .ldSpHl := rfl
theorem ldHlSpE (x : Byte) : Statement (.ldHlSpE x) := rfl
theorem push (x : StackPair) : Statement (.push x) := by cases x <;> rfl
theorem pop (x : StackPair) : Statement (.pop x) := by cases x <;> rfl
theorem addR (x : Reg8) : Statement (.addR x) := by cases x <;> rfl
theorem addM : Statement .addM := rfl
theorem addN (x : Byte) : Statement (.addN x) := rfl
theorem adcR (x : Reg8) : Statement (.adcR x) := by cases x <;> rfl
theorem adcM : Statement .adcM := rfl
theorem adcN (x : Byte) : Statement (.adcN x) := rfl
theorem subR (x : Reg8) : Statement (.subR x) := by cases x <;> rfl
theorem subM : Statement .subM := rfl
theorem subN (x : Byte) : Statement (.subN x) := rfl
theorem sbcR (x : Reg8) : Statement (.sbcR x) := by cases x <;> rfl
theorem sbcM : Statement .sbcM := rfl
theorem sbcN (x : Byte) : Statement (.sbcN x) := rfl
theorem andR (x : Reg8) : Statement (.andR x) := by cases x <;> rfl
theorem andM : Statement .andM := rfl
theorem andN (x : Byte) : Statement (.andN x) := rfl
theorem xorR (x : Reg8) : Statement (.xorR x) := by cases x <;> rfl
theorem xorM : Statement .xorM := rfl
theorem xorN (x : Byte) : Statement (.xorN x) := rfl
theorem orR (x : Reg8) : Statement (.orR x) := by cases x <;> rfl
theorem orM : Statement .orM := rfl
theorem orN (x : Byte) : Statement (.orN x) := rfl
theorem cpR (x : Reg8) : Statement (.cpR x) := by cases x <;> rfl
theorem cpM : Statement .cpM := rfl
theorem cpN (x : Byte) : Statement (.cpN x) := rfl
theorem incR (x : Reg8) : Statement (.incR x) := by cases x <;> rfl
theorem incM : Statement .incM := rfl
theorem decR (x : Reg8) : Statement (.decR x) := by cases x <;> rfl
theorem decM : Statement .decM := rfl
theorem daa : Statement .daa := rfl
theorem cpl : Statement .cpl := rfl
theorem scf : Statement .scf := rfl
theorem ccf : Statement .ccf := rfl
theorem addHlRr (x : Pair) : Statement (.addHlRr x) := by cases x <;> rfl
theorem incRr (x : Pair) : Statement (.incRr x) := by cases x <;> rfl
theorem decRr (x : Pair) : Statement (.decRr x) := by cases x <;> rfl
theorem addSpE (x : Byte) : Statement (.addSpE x) := rfl
theorem rlca : Statement .rlca := rfl
theorem rrca : Statement .rrca := rfl
theorem rla : Statement .rla := rfl
theorem rra : Statement .rra := rfl
theorem jpNn (x : Word) : Statement (.jpNn x) := rfl
theorem jpCcNn (x : Cond) (y : Word) : Statement (.jpCcNn x y) := by cases x <;> rfl
theorem jpHl : Statement .jpHl := rfl
theorem jrE (x : Byte) : Statement (.jrE x) := rfl
theorem jrCcE (x : Cond) (y : Byte) : Statement (.jrCcE x y) := by cases x <;> rfl
theorem callNn (x : Word) : Statement (.callNn x) := rfl
theorem callCcNn (x : Cond) (y : Word) : Statement (.callCcNn x y) := by cases x <;> rfl
theorem ret : Statement .ret := rfl
theorem retCc (x : Cond) : Statement (.retCc x) := by cases x <;> rfl
theorem reti : Statement .reti := rfl
theorem rst (x : BitVec 3) : Statement (.rst x) := by revert x; unfold Statement; decide
theorem nop : Statement .nop := rfl
theorem halt : Statement .halt := rfl
theorem stop (x : Byte) : Statement (.stop x) := rfl
theorem di : Statement .di := rfl
theorem ei : Statement .ei := rfl
theorem prefixCb (x : Byte) : Statement (.prefixCb x) := rfl
theorem illegalD3 : Statement .illegalD3 := rfl
theorem illegalDB : Statement .illegalDB := rfl
theorem illegalDD : Statement .illegalDD := rfl
theorem illegalE3 : Statement .illegalE3 := rfl
theorem illegalE4 : Statement .illegalE4 := rfl
theorem illegalEB : Statement .illegalEB := rfl
theorem illegalEC : Statement .illegalEC := rfl
theorem illegalED : Statement .illegalED := rfl
theorem illegalF4 : Statement .illegalF4 := rfl
theorem illegalFC : Statement .illegalFC := rfl
theorem illegalFD : Statement .illegalFD := rfl
theorem rlcR (x : Reg8) : Statement (.rlcR x) := rfl
theorem rlcM : Statement .rlcM := rfl
theorem rrcR (x : Reg8) : Statement (.rrcR x) := rfl
theorem rrcM : Statement .rrcM := rfl
theorem rlR (x : Reg8) : Statement (.rlR x) := rfl
theorem rlM : Statement .rlM := rfl
theorem rrR (x : Reg8) : Statement (.rrR x) := rfl
theorem rrM : Statement .rrM := rfl
theorem slaR (x : Reg8) : Statement (.slaR x) := rfl
theorem slaM : Statement .slaM := rfl
theorem sraR (x : Reg8) : Statement (.sraR x) := rfl
theorem sraM : Statement .sraM := rfl
theorem swapR (x : Reg8) : Statement (.swapR x) := rfl
theorem swapM : Statement .swapM := rfl
theorem srlR (x : Reg8) : Statement (.srlR x) := rfl
theorem srlM : Statement .srlM := rfl
theorem bitR (x : BitVec 3) (y : Reg8) : Statement (.bitR x y) := rfl
theorem bitM (x : BitVec 3) : Statement (.bitM x) := rfl
theorem resR (x : BitVec 3) (y : Reg8) : Statement (.resR x y) := rfl
theorem resM (x : BitVec 3) : Statement (.resM x) := rfl
theorem setR (x : BitVec 3) (y : Reg8) : Statement (.setR x y) := rfl
theorem setM (x : BitVec 3) : Statement (.setM x) := rfl

end Sys2Proof.Laws.EncodedLength
end

