-- ==== Sys2Proof/Laws/Shapes.lean ====
section
/-! SUPPORT. What each shared update of registers, memory and stack leaves, in the shapes of Safety.lean. -/

namespace Sys2Proof.Machine

theorem State.setReg_SetTo (s : State) (d : Reg8) (v : Byte) (n : Nat) : s.SetTo ((s.setReg d v).took n) d v s.cpu.f n := by
  cases d <;> refine ⟨rfl, ?_, rfl⟩ <;> intro q hq <;> cases q <;> first | rfl | exact absurd rfl hq

theorem State.setRegAlu_SetTo (s : State) (d : Reg8) (o : Alu) (n : Nat) : s.SetTo ((s.setRegAlu d o).took n) d o.val o.f n := by
  cases d <;> refine ⟨rfl, ?_, rfl⟩ <;> intro q hq <;> cases q <;> first | rfl | exact absurd rfl hq

theorem State.setAFlags_SetTo (s : State) (o : Alu) (n : Nat) : s.SetTo ((s.setAFlags o).took n) .a o.val o.f n := by
  refine ⟨rfl, ?_, rfl⟩ ; intro q hq ; cases q <;> first | rfl | exact absurd rfl hq

theorem State.setPair_SetTo (s : State) (p : Pair) (v : Word) (n : Nat) : s.SetPairTo ((s.setPair p v).took n) p v n := by
  cases p <;> refine ⟨?_, ?_, rfl⟩ <;> first | exact joinBytes_hi_lo v | rfl | (intro q hq ; cases q <;> first | rfl | exact absurd rfl hq)

/-- A store, and the CPU untouched. -/
theorem State.memWrite_took (s : State) (a : Word) (v : Byte) (n : Nat) : (s.memWrite a v).took n = { s.memWrite a v with cpu := s.cpu, cycles := n } := by
  have := State.memWrite_cpu s a v
  show ({ s.memWrite a v with cycles := n } : State) = { s.memWrite a v with cpu := s.cpu, cycles := n }
  rw [← this]

theorem State.writeMAlu_took (s : State) (o : Alu) (n : Nat) : (s.writeMAlu o).took n = { s.memWrite s.hl o.val with cpu := { s.cpu with f := o.f }, cycles := n } := by
  unfold State.writeMAlu State.writeM State.setF State.took
  simp only [State.memWrite_cpu]

theorem State.push16_took (s : State) (v : Word) (n : Nat) : (s.push16 v).took n = 
  { (s.memWrite (s.cpu.sp - 1) (byteOf (v.toNat / 256))).memWrite (s.cpu.sp - 2) (byteOf v.toNat) with
          cpu := { s.cpu with sp := s.cpu.sp - 2 }, cycles := n } := by
  rw [State.push16_eq, byteOf_toNat, byteOf_toNat_div]; rfl

theorem State.call_took (s : State) (target : Word) (n : Nat) : (s.call target).took n = 
   { (s.memWrite (s.cpu.sp - 1) (byteOf (s.cpu.pc.toNat / 256))).memWrite (s.cpu.sp - 2) (byteOf s.cpu.pc.toNat) with cpu := { s.cpu with sp := s.cpu.sp - 2, pc := target }, cycles := n } := by
  unfold State.call
  rw [State.push16_eq, byteOf_toNat, byteOf_toNat_div]; rfl

/-- `Push16` from a state that is `s` but for the CPU. -/
theorem State.push16_of_eq {s u : State} {c : Cpu} {n : Nat} (h : u = { s with cpu := c, cycles := n }) (v : Word) :
    u.push16 v = { (s.memWrite (c.sp - 1) (hiByte v)).memWrite (c.sp - 2) (loByte v) with
        cpu := { c with sp := c.sp - 2 }, cycles := n } := by
  subst h
  rw [State.push16_eq]
  simp only
  rw [State.memWrite_cpu_update s c n, State.memWrite_cpu_update _ c n]

/-- R320, R321: everything a dispatch changes. -/
theorem State.takeInterrupt_eq (s : State) (p : BitVec 5) : s.takeInterrupt p =
   { ((({ s with cpu := s.cpu, ifReg := s.ifReg &&& ~~~(1#5 <<< lowestPending p) } : State).memWrite (s.cpu.sp - 1) (hiByte s.cpu.pc)).memWrite (s.cpu.sp - 2) (loByte s.cpu.pc)) with
      cpu := { s.cpu with ime := false, imePending := false, sp := s.cpu.sp - 2, pc := interruptVector (lowestPending p) }, cycles := s.params.intDispatchCycles } := by
  unfold State.takeInterrupt
  simp only
  generalize lowestPending p = i
  have key := State.push16_of_eq (s := { s with ifReg := s.ifReg &&& ~~~(1#5 <<< i) }) (c := { s.cpu with ime := false, imePending := false })
     (n := s.cycles) (u := { s with cpu := { s.cpu with ime := false, imePending := false }, ifReg := s.ifReg &&& ~~~(1#5 <<< i) }) rfl s.cpu.pc
  rw [key]
  rfl

/-- What every store keeps, all stores keep. -/
theorem State.storeAll_ind (P : State → Prop) (hP : ∀ s a v, P s → P (s.memWrite a v)) (l : List (Word × Byte)) (s : State) (h : P s) : P (s.storeAll l) := by
  unfold State.storeAll
  induction l generalizing s with
  | nil => exact h
  | cons p t ih => exact ih _ (hP _ _ _ h)

end Sys2Proof.Machine
end

