-- ==== Sys2Proof/Laws/Step.lean ====
section
/-! SUPPORT. The stages of a step. -/

namespace Sys2Proof.Machine

theorem State.applyInputs_nil (s : State) (h : s.inputs = []) : s.applyInputs = s := by
  unfold State.applyInputs; rw [h]

/-- R310: a step with no host event due and no standing fault. -/
theorem step_of_no_input (s : State) (hi : s.inputs = []) (hf : s.cpu.fault = none) : step s =
   match cpuStep s with
    | .next t => .next (t.advance t.cycles)
    | .fault r => .fault r
    | .refused r => .refused r := by
  unfold step systemStep; rw [State.applyInputs_nil s hi]; simp only [hf] <;> rfl

/-- Everything a step that goes on can be: the events due, CpuStep, the advances. -/
theorem step_next_cases (s t : State) (h : step s = .next t) :
   ∃ u v, u = s.applyInputs ∧ u.cpu.fault = none ∧ cpuStep u = .next v ∧ t = v.advance v.cycles := by
  unfold step systemStep at h
  refine ⟨s.applyInputs, ?_⟩
  cases hf : s.applyInputs.cpu.fault with
  | some op => simp only [hf] at h; cases h
  | none =>
    simp only [hf] at h
    cases hc : cpuStep s.applyInputs with
    | next v => rw [hc] at h; cases h; exact ⟨v, rfl, rfl, rfl, rfl⟩
    | fault r => rw [hc] at h; cases h
    | refused r => rw [hc] at h; cases h

theorem foldl_applyEvent_ind (l : List HostEvent) (s : State) (P : State → Prop) (hP : ∀ s e, P s → P (applyEvent s e)) (h : P s) : P (l.foldl applyEvent s) := by
  induction l generalizing s with
  | nil => exact h
  | cons e t ih => exact ih _ (hP _ _ h)

/-- What every host event keeps, all of a batch keeps. -/
theorem State.applyInputs_ind (P : State → Prop) (s : State) (hP : ∀ s e, P s → P (applyEvent s e)) (hi : ∀ rest, P { s with inputs := rest }) (h : P s) : P s.applyInputs := by
  unfold State.applyInputs
  split
  · exact h
  · exact foldl_applyEvent_ind _ _ P hP (hi _)

theorem applyEvent_keeps (s : State) (e : HostEvent) : (applyEvent s e).cart.rom = s.cart.rom ∧ (applyEvent s e).cart.config = s.cart.config ∧ (applyEvent s e).params = s.params := by
  cases e <;> exact ⟨rfl, rfl, rfl⟩

/-- R511: State.reset is the reset of a machine with the cartridge of log entry 3, the recommended parameters, no device and
no saved image. -/
theorem State.launch_recommended : State.launch cartReset Params.recommended .none none = State.reset := rfl

/-- R511: all that a reset by the host keeps of the machine before it (log entry 19). -/
theorem State.hostReset_congr (keep : Bool) (s u : State) (hc : s.cart = u.cart) (hp : s.params = u.params)
    (hd : s.serial.device = u.serial.device) (hi : s.inputs = u.inputs) (ha : s.apuSeq = u.apuSeq) :
    s.hostReset keep = u.hostReset keep := by
  unfold State.hostReset; rw [hc, hp, hd, hi, ha]

/-- R314, R325: waking and the delayed EI touch three control bits. -/
theorem State.enableDelayed_awake (s : State) : s.awake.enableDelayed =
   { s with cpu := { s.cpu with halted := false, ime := s.cpu.ime || s.cpu.imePending, imePending := false } } := by
  unfold State.enableDelayed
  split
  next h => 
    have h : s.cpu.imePending = true := h
    simp only [State.awake, h, Bool.or_true]
  next h => 
    have h : s.cpu.imePending = false := by simpa using h
    simp only [State.awake, h, Bool.or_false]

/-- What is fetched depends on PC and the HALT bug alone, of the CPU. -/
theorem State.fetched_cpu (s : State) (c : Cpu) (hpc : c.pc = s.cpu.pc) (hb : c.haltBug = s.cpu.haltBug) :
   State.fetched { s with cpu := c } = s.fetched := by
  have e (k a) : ({ s with cpu := c } : State).memRead k a = s.memRead k a := rfl
  unfold State.fetched State.pcAfterOpcode State.opcodeByte
  simp only [e, hpc, hb]

/-- R388: the PPU changes itself and IF alone. -/
theorem State.ppuAdvance_blocks (n : Nat) (s : State) : ∃ p q, s.ppuAdvance n = { s with ppu := p, ifReg := q } := by
  unfold State.ppuAdvance; split
  · exact ⟨_, _, rfl⟩
  · exact ⟨s.ppu, s.ifReg, rfl⟩

/-- R310: no advance touches the CPU. -/
theorem State.advance_cpu (n : Nat) (s : State) : (s.advance n).cpu = s.cpu := by
  obtain ⟨p, q, e⟩ := State.ppuAdvance_blocks n s
  unfold State.advance; rw [e]; rfl

theorem State.advance_keeps (n : Nat) (s : State) : (s.advance n).cart.rom = s.cart.rom ∧ (s.advance n).cart.config = s.cart.config ∧ (s.advance n).params = s.params := by
  have h1 : (s.ppuAdvance n).cart = s.cart ∧ (s.ppuAdvance n).params = s.params := by
    unfold State.ppuAdvance; split <;> exact ⟨rfl, rfl⟩
  unfold State.advance
  simp only [State.cartAdvance, State.serialAdvance, State.dmaAdvance, State.timerAdvance, cartAdvance_rom, cartAdvance_config, h1, and_self]

end Sys2Proof.Machine
end

