-- ==== Sys2Proof/Tests/Slice0.lean ====
section
/-! SUPPORT. The model's own tests: ill-formed terms, words written out from the spec's encodings, the vectors of
spec/95_test_vectors.md (their ids stand in the docstrings), and a witness for every statement that has hypotheses. -/

namespace Sys2Proof.Tests

open Sys2Proof Sys2Proof.Machine

set_option Elab.async false

/-! ### WellFormed -/

/-- R104: the prefix alone is no instruction. -/
theorem test_bare_prefix_is_ill_formed : (Instr.prefixCb 0x37).wellFormed = false := by decide

/-- R111: what its second byte selects is one. -/
theorem test_selected_is_well_formed : (Instr.swapR .a).wellFormed = true := by decide

/-! ### Decoding: bits from the encoding column of spec/opcode_table.json -/

theorem test_decode_load8 :
  Reads [0b01_001_010] (.ldRR .c .d) ∧ Reads [0b00_100_110, 0b10011010] (.ldRN .h 0x9A) ∧
    Reads [0b01_000_110] (.ldRM .b) ∧ Reads [0b01110_011] (.ldMR .e) ∧ Reads [0b00110110, 0b11000001] (.ldMN 0xC1) ∧
    Reads [0b00001010] .ldABc ∧ Reads [0b00011010] .ldADe ∧ Reads [0b00000010] .ldBcA ∧ Reads [0b00010010] .ldDeA ∧
    Reads [0b11111010, 0b01110011, 0b00000100] (.ldANn 0x0473) ∧
    Reads [0b11101010, 0b01111010, 0b00001111] (.ldNnA 0x0F7A) ∧ Reads [0b11110010] .ldhAC ∧
    Reads [0b11100010] .ldhCA ∧ Reads [0b11110000, 0b00110110] (.ldhAN 0x36) ∧
    Reads [0b11100000, 0b01000011] (.ldhNA 0x43) ∧ Reads [0b00101010] .ldAHli ∧ Reads [0b00111010] .ldAHld ∧
    Reads [0b00100010] .ldHliA ∧ Reads [0b00110010] .ldHldA :=
  ⟨rfl, rfl, rfl, rfl, rfl, rfl, rfl, rfl, rfl, rfl, rfl, rfl, rfl, rfl, rfl, rfl, rfl, rfl, rfl⟩

theorem test_decode_load16 :
  Reads [0b00_00_0001, 0b10111001, 0b01110010] (.ldRrNn .bc 0x72B9) ∧
    Reads [0b00001000, 0b11000000, 0b01111101] (.ldNnSp 0x7DC0) ∧ Reads [0b11111001] .ldSpHl ∧
    Reads [0b11111000, 0b10101011] (.ldHlSpE 0xAB) ∧ Reads [0b11_11_0101] (.push .af) ∧
    Reads [0b11_11_0001] (.pop .af) :=
  ⟨rfl, rfl, rfl, rfl, rfl, rfl⟩

theorem test_decode_alu8 :
  Reads [0b10000_111] (.addR .a) ∧ Reads [0b10000110] .addM ∧ Reads [0b11000110, 0b11101100] (.addN 0xEC) ∧
    Reads [0b10001_001] (.adcR .c) ∧ Reads [0b10001110] .adcM ∧ Reads [0b11001110, 0b00010011] (.adcN 0x13) ∧
    Reads [0b10010_011] (.subR .e) ∧ Reads [0b10010110] .subM ∧ Reads [0b11010110, 0b00111010] (.subN 0x3A) ∧
    Reads [0b10011_101] (.sbcR .l) ∧ Reads [0b10011110] .sbcM ∧ Reads [0b11011110, 0b01100001] (.sbcN 0x61) ∧
    Reads [0b10100_000] (.andR .b) ∧ Reads [0b10100110] .andM ∧ Reads [0b11100110, 0b10001000] (.andN 0x88) ∧
    Reads [0b10101_010] (.xorR .d) ∧ Reads [0b10101110] .xorM ∧ Reads [0b11101110, 0b10101111] (.xorN 0xAF) ∧
    Reads [0b10110_100] (.orR .h) ∧ Reads [0b10110110] .orM ∧ Reads [0b11110110, 0b11010110] (.orN 0xD6) ∧
    Reads [0b10111_111] (.cpR .a) ∧ Reads [0b10111110] .cpM ∧ Reads [0b11111110, 0b11111101] (.cpN 0xFD) ∧
    Reads [0b00_001_100] (.incR .c) ∧ Reads [0b00110100] .incM ∧ Reads [0b00_000_101] (.decR .b) ∧
    Reads [0b00110101] .decM ∧ Reads [0b00100111] .daa ∧ Reads [0b00101111] .cpl ∧ Reads [0b00110111] .scf ∧
    Reads [0b00111111] .ccf :=
  ⟨rfl, rfl, rfl, rfl, rfl, rfl, rfl, rfl, rfl, rfl, rfl, rfl, rfl, rfl, rfl, rfl, rfl, rfl, rfl, rfl, rfl, rfl, rfl, rfl, rfl, rfl, rfl, rfl, rfl, rfl, rfl, rfl⟩

theorem test_decode_alu16 :
  Reads [0b00_10_1001] (.addHlRr .hl) ∧ Reads [0b00_11_0011] (.incRr .sp) ∧ Reads [0b00_00_1011] (.decRr .bc) ∧
    Reads [0b11101000, 0b10011001] (.addSpE 0x99) :=
  ⟨rfl, rfl, rfl, rfl⟩

theorem test_decode_accumulator_rotates :
  Reads [0b00000111] .rlca ∧ Reads [0b00001111] .rrca ∧ Reads [0b00010111] .rla ∧ Reads [0b00011111] .rra :=
  ⟨rfl, rfl, rfl, rfl⟩

theorem test_decode_control :
  Reads [0b11000011, 0b11111011, 0b01101100] (.jpNn 0x6CFB) ∧
    Reads [0b110_00_010, 0b00000010, 0b01110111] (.jpCcNn .nz 0x7702) ∧ Reads [0b11101001] .jpHl ∧
    Reads [0b00011000, 0b00000001] (.jrE 0x01) ∧ Reads [0b001_11_000, 0b00001110] (.jrCcE .c 0x0E) ∧
    Reads [0b11001101, 0b00011110, 0b10100011] (.callNn 0xA31E) ∧
    Reads [0b110_01_100, 0b00100101, 0b10101110] (.callCcNn .z 0xAE25) ∧ Reads [0b11001001] .ret ∧
    Reads [0b110_11_000] (.retCc .c) ∧ Reads [0b11011001] .reti ∧ Reads [0b11_010_111] (.rst 2) :=
  ⟨rfl, rfl, rfl, rfl, rfl, rfl, rfl, rfl, rfl, rfl, rfl⟩

theorem test_decode_system :
  Reads [0b00000000] .nop ∧ Reads [0b01110110] .halt ∧ Reads [0b00010000, 0b10000011] (.stop 0x83) ∧
    Reads [0b11110011] .di ∧ Reads [0b11111011] .ei :=
  ⟨rfl, rfl, rfl, rfl, rfl⟩

theorem test_decode_illegal :
  Reads [0b11010011] .illegalD3 ∧ Reads [0b11011011] .illegalDB ∧ Reads [0b11011101] .illegalDD ∧
    Reads [0b11100011] .illegalE3 ∧ Reads [0b11100100] .illegalE4 ∧ Reads [0b11101011] .illegalEB ∧
    Reads [0b11101100] .illegalEC ∧ Reads [0b11101101] .illegalED ∧ Reads [0b11110100] .illegalF4 ∧
    Reads [0b11111100] .illegalFC ∧ Reads [0b11111101] .illegalFD :=
  ⟨rfl, rfl, rfl, rfl, rfl, rfl, rfl, rfl, rfl, rfl, rfl⟩

theorem test_decode_rotates_shifts :
  Reads [0b11001011, 0b00000_000] (.rlcR .b) ∧ Reads [0b11001011, 0b00000110] .rlcM ∧
    Reads [0b11001011, 0b00001_111] (.rrcR .a) ∧ Reads [0b11001011, 0b00001110] .rrcM ∧
    Reads [0b11001011, 0b00010_101] (.rlR .l) ∧ Reads [0b11001011, 0b00010110] .rlM ∧
    Reads [0b11001011, 0b00011_100] (.rrR .h) ∧ Reads [0b11001011, 0b00011110] .rrM ∧
    Reads [0b11001011, 0b00100_011] (.slaR .e) ∧ Reads [0b11001011, 0b00100110] .slaM ∧
    Reads [0b11001011, 0b00101_010] (.sraR .d) ∧ Reads [0b11001011, 0b00101110] .sraM ∧
    Reads [0b11001011, 0b00110_001] (.swapR .c) ∧ Reads [0b11001011, 0b00110110] .swapM ∧
    Reads [0b11001011, 0b00111_000] (.srlR .b) ∧ Reads [0b11001011, 0b00111110] .srlM :=
  ⟨rfl, rfl, rfl, rfl, rfl, rfl, rfl, rfl, rfl, rfl, rfl, rfl, rfl, rfl, rfl, rfl⟩

theorem test_decode_bits :
  Reads [0b11001011, 0b01_100_000] (.bitR 4 .b) ∧ Reads [0b11001011, 0b01_001_110] (.bitM 1) ∧
    Reads [0b11001011, 0b10_110_111] (.resR 6 .a) ∧ Reads [0b11001011, 0b10_011_110] (.resM 3) ∧
    Reads [0b11001011, 0b11_000_101] (.setR 0 .l) ∧ Reads [0b11001011, 0b11_101_110] (.setM 5) :=
  ⟨rfl, rfl, rfl, rfl, rfl, rfl⟩

/-- R119: a two-byte row is numbered with 0xCB in the high half; any other row has its first byte lowest. -/
theorem test_table_words :
    decodeTableWord 16 0xCB37 = some (.swapR .a) ∧ decodeTableWord 8 0x76 = some .halt ∧
    decodeTableWord 8 0x3E = some (.ldRN .a 0x00) ∧ decodeTableWord 24 0x1234C3 = some (.jpNn 0x1234) := by
  decide +kernel

/-- A program that ends too soon is rejected by name. -/
theorem test_truncated_is_rejected : decodeBytes [0xC3, 0x50] = .error (.truncated 0xC3) ∧ decodeBytes [] = .error .noBytes :=
  ⟨rfl, rfl⟩

/-! ### The start state of spec/95_test_vectors.md section 1 -/

/-- A byte placed directly, as the `before` column says. -/
def poke (s : State) (p : Word × Byte) : State :=
  match ownerOf p.1 with
  | .rom _ => s.placeByte p.1 p.2
  | _ => s.rawWrite p.1 p.2

/-- The reset state with F = 00, PC = C000 and the instruction there, then the `before` column. -/
def start (code : List Byte) (cpu : Cpu → Cpu) (mem : List (Word × Byte)) : State :=
  let s := { State.reset with cpu := cpu { cpuReset with f := 0x00, pc := 0xC000 } }
  mem.foldl poke (code.zipIdx.foldl (fun u p => u.placeByte (0xC000 + BitVec.ofNat 16 p.2) p.1) s)

/-- One step gives exactly this CPU, these bytes and no other byte of WRAM and HRAM, and this cycle count. -/
def gives (code : List Byte) (cpu : Cpu → Cpu) (mem : List (Word × Byte)) (cpu' : Cpu → Cpu) (mem' : List (Word × Byte))
    (n : Nat) : Bool :=
  let s := start code cpu mem
  match step s with
  | .next t =>
    decide (t.cpu = cpu' s.cpu) && mem'.all (fun p => t.rawRead .dataLo p.1 == p.2) && t.cycles == n &&
      decide (t.wram = (mem'.foldl poke s).wram) && decide (t.hram = (mem'.foldl poke s).hram)
  | _ => false

/-- The next state, if there is one. -/
def nextOf : Result → Option State
  | .next t => some t
  | _ => none

theorem exists_next {r : Result} (h : (nextOf r).isSome = true) : ∃ t, r = .next t := by
  cases r with
  | next t => exact ⟨t, rfl⟩
  | fault _ => cases h
  | refused _ => cases h

/-! ### The vectors, sections 3 to 9 -/

/-- V40-01, V40-02 -/
theorem test_ldRR :
    (gives [0x41] (fun c => { c with b := 0x00, c := 0x5A }) [] (fun c => { c with b := 0x5A, pc := 0xC001 }) [] 4 &&
    gives [0x7F] (fun c => { c with a := 0x77 }) []
      (fun c => { c with pc := 0xC001 }) [] 4) = true := by decide +kernel

/-- V40-03 -/
theorem test_ldRN :
    (gives [0x16, 0x9C] id [] (fun c => { c with d := 0x9C, pc := 0xC002 }) [] 8) = true := by decide +kernel

/-- V40-04, V40-31 -/
theorem test_ldRM :
    (gives [0x5E] (fun c => { c with h := 0xC1, l := 0x23 }) [(0xC123, 0xAB)]
      (fun c => { c with e := 0xAB, pc := 0xC001 }) [] 8 &&
    gives [0x7E] (fun c => { c with h := 0xFF, l := 0x03, a := 0x55 }) []
      (fun c => { c with a := 0xFF, pc := 0xC001 }) [] 8) = true := by decide +kernel

/-- V40-06, V40-29 -/
theorem test_ldMR :
    (gives [0x70] (fun c => { c with h := 0xC2, l := 0x00, b := 0x3C }) []
      (fun c => { c with pc := 0xC001 }) [(0xC200, 0x3C)] 8 &&
    gives [0x77] (fun c => { c with h := 0x20, l := 0x00, a := 0x05 }) []
      (fun c => { c with pc := 0xC001 }) [] 8) = true := by decide +kernel

/-- V40-08 -/
theorem test_ldMN :
    (gives [0x36, 0x99] (fun c => { c with h := 0xFF, l := 0x90 }) []
      (fun c => { c with pc := 0xC002 }) [(0xFF90, 0x99)] 12) = true := by decide +kernel

/-- V40-09 -/
theorem test_ldABc :
    (gives [0x0A] (fun c => { c with b := 0xC3, c := 0x00 }) [(0xC300, 0x2F)]
      (fun c => { c with a := 0x2F, pc := 0xC001 }) [] 8) = true := by decide +kernel

/-- V40-10 -/
theorem test_ldADe :
    (gives [0x1A] (fun c => { c with d := 0xE3, e := 0x00 }) [(0xC300, 0x5F)]
      (fun c => { c with a := 0x5F, pc := 0xC001 }) [] 8) = true := by decide +kernel

/-- V40-11 -/
theorem test_ldBcA :
    (gives [0x02] (fun c => { c with b := 0xC3, c := 0x01, a := 0x11 }) []
      (fun c => { c with pc := 0xC001 }) [(0xC301, 0x11)] 8) = true := by decide +kernel

/-- V40-12 -/
theorem test_ldDeA :
    (gives [0x12] (fun c => { c with d := 0xFD, e := 0xFF, a := 0x22 }) []
      (fun c => { c with pc := 0xC001 }) [(0xDDFF, 0x22)] 8) = true := by decide +kernel

/-- V40-13 -/
theorem test_ldANn :
    (gives [0xFA, 0x85, 0xFF] id [(0xFF85, 0x66)]
      (fun c => { c with a := 0x66, pc := 0xC003 }) [] 16) = true := by decide +kernel

/-- V40-14 -/
theorem test_ldNnA :
    (gives [0xEA, 0x00, 0xC4] (fun c => { c with a := 0x42 }) []
      (fun c => { c with pc := 0xC003 }) [(0xC400, 0x42)] 16) = true := by decide +kernel

/-- V40-15 -/
theorem test_ldhAC :
    (gives [0xF2] (fun c => { c with c := 0x81 }) [(0xFF81, 0x9D)]
      (fun c => { c with a := 0x9D, pc := 0xC001 }) [] 8) = true := by decide +kernel

/-- V40-16 -/
theorem test_ldhCA :
    (gives [0xE2] (fun c => { c with c := 0x82, a := 0x4E }) []
      (fun c => { c with pc := 0xC001 }) [(0xFF82, 0x4E)] 8) = true := by decide +kernel

/-- V40-17, V40-18 -/
theorem test_ldhAN :
    (gives [0xF0, 0x0F] id [(0xFF0F, 0xE5)] (fun c => { c with a := 0xE5, pc := 0xC002 }) [] 12 &&
    gives [0xF0, 0x07] id [(0xFF07, 0xFB)]
      (fun c => { c with a := 0xFB, pc := 0xC002 }) [] 12) = true := by decide +kernel

/-- V40-19, V40-20 -/
theorem test_ldhNA :
    (gives [0xE0, 0x06] (fun c => { c with a := 0xF0 }) [] (fun c => { c with pc := 0xC002 }) [(0xFF06, 0xF0)] 12 &&
    gives [0xE0, 0xFF] (fun c => { c with a := 0x1F }) []
      (fun c => { c with pc := 0xC002 }) [(0xFFFF, 0x1F)] 12) = true := by decide +kernel

/-- V40-21, V40-22 -/
theorem test_ldAHli :
    (gives [0x2A] (fun c => { c with h := 0xC0, l := 0xFF }) [(0xC0FF, 0x56)]
      (fun c => { c with a := 0x56, h := 0xC1, l := 0x00, pc := 0xC001 }) [] 8 &&
    gives [0x2A] (fun c => { c with h := 0xFF, l := 0xFF }) [(0xFFFF, 0x15)]
      (fun c => { c with a := 0x15, h := 0x00, l := 0x00, pc := 0xC001 }) [] 8) = true := by decide +kernel

/-- V40-23 -/
theorem test_ldAHld :
    (gives [0x3A] (fun c => { c with h := 0xC1, l := 0x00 }) [(0xC100, 0x3C)]
      (fun c => { c with a := 0x3C, h := 0xC0, l := 0xFF, pc := 0xC001 }) [] 8) = true := by decide +kernel

/-- V40-24 -/
theorem test_ldHliA :
    (gives [0x22] (fun c => { c with h := 0xC1, l := 0xFF, a := 0x56 }) []
      (fun c => { c with h := 0xC2, l := 0x00, pc := 0xC001 }) [(0xC1FF, 0x56)] 8) = true := by decide +kernel

/-- V40-25 -/
theorem test_ldHldA :
    (gives [0x32] (fun c => { c with h := 0xC5, l := 0x00, a := 0x05 }) []
      (fun c => { c with h := 0xC4, l := 0xFF, pc := 0xC001 }) [(0xC500, 0x05)] 8) = true := by decide +kernel

/-- V41-01, V41-02 -/
theorem test_ldRrNn :
    (gives [0x01, 0x34, 0x12] id [] (fun c => { c with b := 0x12, c := 0x34, pc := 0xC003 }) [] 12 &&
    gives [0x31, 0xFF, 0xDF] id [] (fun c => { c with sp := 0xDFFF, pc := 0xC003 }) [] 12) = true := by decide +kernel

/-- V41-03, V41-04 -/
theorem test_ldNnSp :
    (gives [0x08, 0x00, 0xC1] (fun c => { c with sp := 0xDFF0 }) []
      (fun c => { c with pc := 0xC003 }) [(0xC100, 0xF0), (0xC101, 0xDF)] 20 &&
    gives [0x08, 0xFF, 0xFF] (fun c => { c with sp := 0x1F0E }) []
      (fun c => { c with pc := 0xC003 }) [(0xFFFF, 0x0E)] 20) = true := by decide +kernel

/-- V41-05 -/
theorem test_ldSpHl :
    (gives [0xF9] (fun c => { c with h := 0xD0, l := 0x00 }) []
      (fun c => { c with sp := 0xD000, pc := 0xC001 }) [] 8) = true := by decide +kernel

/-- V41-06, V41-11 -/
theorem test_ldHlSpE :
    (gives [0xF8, 0x02] (fun c => { c with sp := 0xFFF8, f := 0xF0 }) []
      (fun c => { c with f := 0x00, h := 0xFF, l := 0xFA, pc := 0xC002 }) [] 12 &&
    gives [0xF8, 0x80] (fun c => { c with sp := 0xD080 }) []
      (fun c => { c with f := 0x10, h := 0xD0, l := 0x00, pc := 0xC002 }) [] 12) = true := by decide +kernel

/-- V41-12, V41-14 -/
theorem test_push :
    (gives [0xC5] (fun c => { c with sp := 0xFFFE, b := 0x12, c := 0x34 }) []
      (fun c => { c with sp := 0xFFFC, pc := 0xC001 }) [(0xFFFC, 0x34), (0xFFFD, 0x12)] 16 &&
    gives [0xC5] (fun c => { c with sp := 0x0001, b := 0x12, c := 0x34 }) []
      (fun c => { c with sp := 0xFFFF, pc := 0xC001 }) [(0xFFFF, 0x34)] 16) = true := by decide +kernel

/-- V41-15, V41-18 -/
theorem test_pop :
    (gives [0xD1] (fun c => { c with sp := 0xFFFC }) [(0xFFFC, 0x34), (0xFFFD, 0x12)]
      (fun c => { c with d := 0x12, e := 0x34, sp := 0xFFFE, pc := 0xC001 }) [] 12 &&
    gives [0xE1] (fun c => { c with sp := 0xFFFF }) [(0xFFFF, 0x1B)]
      (fun c => { c with h := 0x00, l := 0x1B, sp := 0x0001, pc := 0xC001 }) [] 12) = true := by decide +kernel

/-- V42-01, V42-03 -/
theorem test_addR :
    (gives [0x80] (fun c => { c with a := 0x3A, b := 0xC6 }) []
      (fun c => { c with a := 0x00, f := 0xB0, pc := 0xC001 }) [] 4 &&
    gives [0x87] (fun c => { c with a := 0x80 }) []
      (fun c => { c with a := 0x00, f := 0x90, pc := 0xC001 }) [] 4) = true := by decide +kernel

/-- V42-05 -/
theorem test_addM :
    (gives [0x86] (fun c => { c with a := 0x3C, h := 0xC1, l := 0x00, f := 0xF0 }) [(0xC100, 0x12)]
      (fun c => { c with a := 0x4E, f := 0x00, pc := 0xC001 }) [] 8) = true := by decide +kernel

/-- V42-04 -/
theorem test_addN :
    (gives [0xC6, 0xFF] (fun c => { c with a := 0x3C }) []
      (fun c => { c with a := 0x3B, f := 0x30, pc := 0xC002 }) [] 8) = true := by decide +kernel

/-- V42-06, V42-11 -/
theorem test_adcR :
    (gives [0x8B] (fun c => { c with a := 0xE1, e := 0x0F, f := 0x10 }) []
      (fun c => { c with a := 0xF1, f := 0x20, pc := 0xC001 }) [] 4 &&
    gives [0x8F] (fun c => { c with a := 0x80, f := 0x10 }) []
      (fun c => { c with a := 0x01, f := 0x10, pc := 0xC001 }) [] 4) = true := by decide +kernel

/-- R182 by hand -/
theorem test_adcM :
    (gives [0x8E] (fun c => { c with a := 0xE1, h := 0xC1, l := 0x00, f := 0x10 }) [(0xC100, 0x3B)]
      (fun c => { c with a := 0x1D, f := 0x10, pc := 0xC001 }) [] 8) = true := by decide +kernel

/-- V42-07 -/
theorem test_adcN :
    (gives [0xCE, 0x3B] (fun c => { c with a := 0xE1, f := 0x10 }) []
      (fun c => { c with a := 0x1D, f := 0x10, pc := 0xC002 }) [] 8) = true := by decide +kernel

/-- V42-12, V42-16 -/
theorem test_subR :
    (gives [0x93] (fun c => { c with a := 0x3E, e := 0x3E }) []
      (fun c => { c with a := 0x00, f := 0xC0, pc := 0xC001 }) [] 4 &&
    gives [0x90] (fun c => { c with a := 0x00, b := 0x01 }) []
      (fun c => { c with a := 0xFF, f := 0x70, pc := 0xC001 }) [] 4) = true := by decide +kernel

/-- R183 by hand -/
theorem test_subM :
    (gives [0x96] (fun c => { c with a := 0x3E, h := 0xC1, l := 0x00 }) [(0xC100, 0x40)]
      (fun c => { c with a := 0xFE, f := 0x50, pc := 0xC001 }) [] 8) = true := by decide +kernel

/-- V42-13 -/
theorem test_subN :
    (gives [0xD6, 0x0F] (fun c => { c with a := 0x3E }) []
      (fun c => { c with a := 0x2F, f := 0x60, pc := 0xC002 }) [] 8) = true := by decide +kernel

/-- V42-17, V42-22 -/
theorem test_sbcR :
    (gives [0x9C] (fun c => { c with a := 0x3B, h := 0x2A, f := 0x10 }) []
      (fun c => { c with a := 0x10, f := 0x40, pc := 0xC001 }) [] 4 &&
    gives [0x9F] (fun c => { c with a := 0x77, f := 0x10 }) []
      (fun c => { c with a := 0xFF, f := 0x70, pc := 0xC001 }) [] 4) = true := by decide +kernel

/-- R184 by hand -/
theorem test_sbcM :
    (gives [0x9E] (fun c => { c with a := 0x10, h := 0xC1, l := 0x00, f := 0x10 }) [(0xC100, 0x0F)]
      (fun c => { c with a := 0x00, f := 0xE0, pc := 0xC001 }) [] 8) = true := by decide +kernel

/-- V42-18 -/
theorem test_sbcN :
    (gives [0xDE, 0x3A] (fun c => { c with a := 0x3B, f := 0x10 }) []
      (fun c => { c with a := 0x00, f := 0xC0, pc := 0xC002 }) [] 8) = true := by decide +kernel

/-- V42-23 -/
theorem test_andR :
    (gives [0xA5] (fun c => { c with a := 0x5A, l := 0x3F }) []
      (fun c => { c with a := 0x1A, f := 0x20, pc := 0xC001 }) [] 4) = true := by decide +kernel

/-- R185 by hand -/
theorem test_andM :
    (gives [0xA6] (fun c => { c with a := 0x5A, h := 0xC1, l := 0x00 }) [(0xC100, 0x3F)]
      (fun c => { c with a := 0x1A, f := 0x20, pc := 0xC001 }) [] 8) = true := by decide +kernel

/-- V42-24 -/
theorem test_andN :
    (gives [0xE6, 0x00] (fun c => { c with a := 0x5A, f := 0x10 }) []
      (fun c => { c with a := 0x00, f := 0xA0, pc := 0xC002 }) [] 8) = true := by decide +kernel

/-- V42-25 -/
theorem test_xorR :
    (gives [0xAF] (fun c => { c with a := 0xFF, f := 0xF0 }) []
      (fun c => { c with a := 0x00, f := 0x80, pc := 0xC001 }) [] 4) = true := by decide +kernel

/-- R186 by hand -/
theorem test_xorM :
    (gives [0xAE] (fun c => { c with a := 0xFF, h := 0xC1, l := 0x00 }) [(0xC100, 0x0F)]
      (fun c => { c with a := 0xF0, f := 0x00, pc := 0xC001 }) [] 8) = true := by decide +kernel

/-- V42-26 -/
theorem test_xorN :
    (gives [0xEE, 0x0F] (fun c => { c with a := 0xFF }) []
      (fun c => { c with a := 0xF0, f := 0x00, pc := 0xC002 }) [] 8) = true := by decide +kernel

/-- V42-27 -/
theorem test_orR :
    (gives [0xB1] (fun c => { c with a := 0x00, c := 0x00, f := 0x70 }) []
      (fun c => { c with a := 0x00, f := 0x80, pc := 0xC001 }) [] 4) = true := by decide +kernel

/-- R187 by hand -/
theorem test_orM :
    (gives [0xB6] (fun c => { c with a := 0x5A, h := 0xC1, l := 0x00 }) [(0xC100, 0x03)]
      (fun c => { c with a := 0x5B, f := 0x00, pc := 0xC001 }) [] 8) = true := by decide +kernel

/-- V42-28 -/
theorem test_orN :
    (gives [0xF6, 0x03] (fun c => { c with a := 0x5A }) []
      (fun c => { c with a := 0x5B, f := 0x00, pc := 0xC002 }) [] 8) = true := by decide +kernel

/-- V42-29 -/
theorem test_cpR :
    (gives [0xB8] (fun c => { c with a := 0x3C, b := 0x2F }) []
      (fun c => { c with a := 0x3C, f := 0x60, pc := 0xC001 }) [] 4) = true := by decide +kernel

/-- V42-31 -/
theorem test_cpM :
    (gives [0xBE] (fun c => { c with a := 0x3C, h := 0xC1, l := 0x00 }) [(0xC100, 0x40)]
      (fun c => { c with a := 0x3C, f := 0x50, pc := 0xC001 }) [] 8) = true := by decide +kernel

/-- V42-30 -/
theorem test_cpN :
    (gives [0xFE, 0x3C] (fun c => { c with a := 0x3C }) []
      (fun c => { c with a := 0x3C, f := 0xC0, pc := 0xC002 }) [] 8) = true := by decide +kernel

/-- V42-32, V42-33 -/
theorem test_incR :
    (gives [0x3C] (fun c => { c with a := 0xFF, f := 0x10 }) []
      (fun c => { c with a := 0x00, f := 0xB0, pc := 0xC001 }) [] 4 &&
    gives [0x04] (fun c => { c with b := 0x0F, f := 0xC0 }) []
      (fun c => { c with a := 0x01, f := 0x20, b := 0x10, pc := 0xC001 }) [] 4) = true := by decide +kernel

/-- V42-34, V42-35 -/
theorem test_incM :
    (gives [0x34] (fun c => { c with h := 0xC1, l := 0x00 }) [(0xC100, 0x50)]
      (fun c => { c with a := 0x01, f := 0x00, pc := 0xC001 }) [(0xC100, 0x51)] 12 &&
    gives [0x34] (fun c => { c with h := 0xFF, l := 0x05 }) [(0xFF05, 0xFF)]
      (fun c => { c with a := 0x01, f := 0xA0, pc := 0xC001 }) [(0xFF05, 0x00)] 12) = true := by decide +kernel

/-- V42-36, V42-38 -/
theorem test_decR :
    (gives [0x2D] (fun c => { c with l := 0x01 }) []
      (fun c => { c with a := 0x01, f := 0xC0, l := 0x00, pc := 0xC001 }) [] 4 &&
    gives [0x0D] (fun c => { c with c := 0x10 }) []
      (fun c => { c with a := 0x01, f := 0x60, c := 0x0F, pc := 0xC001 }) [] 4) = true := by decide +kernel

/-- V42-39 -/
theorem test_decM :
    (gives [0x35] (fun c => { c with h := 0xC1, l := 0x00 }) [(0xC100, 0x00)]
      (fun c => { c with a := 0x01, f := 0x60, pc := 0xC001 }) [(0xC100, 0xFF)] 12) = true := by decide +kernel

/-- V42D-01, V42D-15 -/
theorem test_daa :
    (gives [0x27] (fun c => { c with a := 0x7D, f := 0x00 }) []
      (fun c => { c with a := 0x83, f := 0x00, pc := 0xC001 }) [] 4 &&
    gives [0x27] (fun c => { c with a := 0x60, f := 0x50 }) []
      (fun c => { c with a := 0x00, f := 0xD0, pc := 0xC001 }) [] 4) = true := by decide +kernel

/-- V42-40 -/
theorem test_cpl :
    (gives [0x2F] (fun c => { c with a := 0x35, f := 0x90 }) []
      (fun c => { c with a := 0xCA, f := 0xF0, pc := 0xC001 }) [] 4) = true := by decide +kernel

/-- V42-41 -/
theorem test_scf :
    (gives [0x37] (fun c => { c with f := 0xE0 }) []
      (fun c => { c with a := 0x01, f := 0x90, pc := 0xC001 }) [] 4) = true := by decide +kernel

/-- V42-42, V42-43 -/
theorem test_ccf :
    (gives [0x3F] (fun c => { c with f := 0xF0 }) [] (fun c => { c with a := 0x01, f := 0x80, pc := 0xC001 }) [] 4 &&
    gives [0x3F] (fun c => { c with f := 0x00 }) []
      (fun c => { c with a := 0x01, f := 0x10, pc := 0xC001 }) [] 4) = true := by decide +kernel

/-- V43-01, V43-06 -/
theorem test_addHlRr :
    (gives [0x09] (fun c => { c with h := 0x8A, l := 0x23, b := 0x06, c := 0x05, f := 0x80 }) []
      (fun c => { c with f := 0xA0, h := 0x90, l := 0x28, pc := 0xC001 }) [] 8 &&
    gives [0x39] (fun c => { c with h := 0x10, l := 0x00, sp := 0xF000 }) []
      (fun c => { c with f := 0x10, h := 0x00, pc := 0xC001 }) [] 8) = true := by decide +kernel

/-- V43-07, V43-09 -/
theorem test_incRr :
    (gives [0x13] (fun c => { c with d := 0x23, e := 0x5F, f := 0xF0 }) []
      (fun c => { c with f := 0xF0, e := 0x60, pc := 0xC001 }) [] 8 &&
    gives [0x33] (fun c => { c with sp := 0xFFFF }) []
      (fun c => { c with f := 0x00, sp := 0x0000, pc := 0xC001 }) [] 8) = true := by decide +kernel

/-- V43-10, V43-12 -/
theorem test_decRr :
    (gives [0x0B] (fun c => { c with b := 0x00, c := 0x01, f := 0x00 }) []
      (fun c => { c with f := 0x00, c := 0x00, pc := 0xC001 }) [] 8 &&
    gives [0x3B] (fun c => { c with sp := 0x0000 }) []
      (fun c => { c with f := 0x00, sp := 0xFFFF, pc := 0xC001 }) [] 8) = true := by decide +kernel

/-- V43-13, V43-18 -/
theorem test_addSpE :
    (gives [0xE8, 0x02] (fun c => { c with sp := 0xFFF8, f := 0xF0 }) []
      (fun c => { c with f := 0x00, sp := 0xFFFA, pc := 0xC002 }) [] 16 &&
    gives [0xE8, 0x7F] (fun c => { c with sp := 0xD0F1 }) []
      (fun c => { c with f := 0x30, sp := 0xD170, pc := 0xC002 }) [] 16) = true := by decide +kernel

/-- V44-01, V44-02 -/
theorem test_rlca :
    (gives [0x07] (fun c => { c with a := 0x85 }) [] (fun c => { c with f := 0x10, a := 0x0B, pc := 0xC001 }) [] 4 &&
    gives [0x07] (fun c => { c with a := 0x00, f := 0xF0 }) []
      (fun c => { c with f := 0x00, pc := 0xC001 }) [] 4) = true := by decide +kernel

/-- V44-03 -/
theorem test_rrca :
    (gives [0x0F] (fun c => { c with a := 0x3B }) []
      (fun c => { c with f := 0x10, a := 0x9D, pc := 0xC001 }) [] 4) = true := by decide +kernel

/-- V44-04, V44-05 -/
theorem test_rla :
    (gives [0x17] (fun c => { c with a := 0x95, f := 0x10 }) []
      (fun c => { c with f := 0x10, a := 0x2B, pc := 0xC001 }) [] 4 &&
    gives [0x17] (fun c => { c with a := 0x80, f := 0x00 }) []
      (fun c => { c with f := 0x10, a := 0x00, pc := 0xC001 }) [] 4) = true := by decide +kernel

/-- V44-06, V44-08 -/
theorem test_rra :
    (gives [0x1F] (fun c => { c with a := 0x81, f := 0x00 }) []
      (fun c => { c with f := 0x10, a := 0x40, pc := 0xC001 }) [] 4 &&
    gives [0x1F] (fun c => { c with a := 0x00, f := 0x10 }) []
      (fun c => { c with f := 0x00, a := 0x80, pc := 0xC001 }) [] 4) = true := by decide +kernel

/-- V45-01 -/
theorem test_jpNn :
    (gives [0xC3, 0x50, 0x01] id [] (fun c => { c with pc := 0x0150 }) [] 16) = true := by decide +kernel

/-- V45-02, V45-05 -/
theorem test_jpCcNn :
    (gives [0xCA, 0x00, 0x80] (fun c => { c with f := 0x80 }) [] (fun c => { c with pc := 0x8000 }) [] 16 &&
    gives [0xDA, 0x34, 0x12] (fun c => { c with f := 0x10 }) []
      (fun c => { c with pc := 0x1234 }) [] 16) = true := by decide +kernel

/-- V45-06 -/
theorem test_jpHl :
    (gives [0xE9] (fun c => { c with h := 0xC8, l := 0x00 }) [(0xC800, 0x12), (0xC801, 0x34)]
      (fun c => { c with pc := 0xC800 }) [] 4) = true := by decide +kernel

/-- V45-07, V45-12 -/
theorem test_jrE :
    (gives [0x18, 0x05] id [] (fun c => { c with pc := 0xC007 }) [] 12 &&
    gives [0x18, 0x80] id [] (fun c => { c with pc := 0xBF82 }) [] 12) = true := by decide +kernel

/-- V45-13, V45-16 -/
theorem test_jrCcE :
    (gives [0x20, 0xFD] (fun c => { c with f := 0x00 }) [] (fun c => { c with pc := 0xBFFF }) [] 12 &&
    gives [0x28, 0x10] (fun c => { c with f := 0x70 }) []
      (fun c => { c with pc := 0xC002 }) [] 8) = true := by decide +kernel

/-- V45-17 -/
theorem test_callNn :
    (gives [0xCD, 0x34, 0x12] (fun c => { c with sp := 0xFFFE }) []
      (fun c => { c with sp := 0xFFFC, pc := 0x1234 }) [(0xFFFC, 0x03), (0xFFFD, 0xC0)] 24) = true := by decide +kernel

/-- V45-18, V45-20 -/
theorem test_callCcNn :
    (gives [0xD4, 0x00, 0x40] (fun c => { c with sp := 0xD000, f := 0x00 }) []
      (fun c => { c with sp := 0xCFFE, pc := 0x4000 }) [(0xCFFE, 0x03), (0xCFFF, 0xC0)] 24 &&
    gives [0xCC, 0x00, 0x40] (fun c => { c with sp := 0xD000, f := 0x80 }) []
      (fun c => { c with sp := 0xCFFE, pc := 0x4000 }) [(0xCFFE, 0x03), (0xCFFF, 0xC0)] 24) = true := by decide +kernel

/-- V45-21 -/
theorem test_ret :
    (gives [0xC9] (fun c => { c with sp := 0xFFFC }) [(0xFFFC, 0x03), (0xFFFD, 0x02)]
      (fun c => { c with sp := 0xFFFE, pc := 0x0203 }) [] 16) = true := by decide +kernel

/-- V45-22, V45-24 -/
theorem test_retCc :
    (gives [0xC0] (fun c => { c with sp := 0xFFFC, f := 0x00 }) [(0xFFFC, 0x03), (0xFFFD, 0x02)]
      (fun c => { c with sp := 0xFFFE, pc := 0x0203 }) [] 20 &&
    gives [0xD8] (fun c => { c with sp := 0xFFFC, f := 0x10 }) [(0xFFFC, 0x03), (0xFFFD, 0x02)]
      (fun c => { c with sp := 0xFFFE, pc := 0x0203 }) [] 20) = true := by decide +kernel

/-- V45-25 -/
theorem test_reti :
    (gives [0xD9] (fun c => { c with sp := 0xFFFC, ime := false }) [(0xFFFC, 0x03), (0xFFFD, 0x02)]
      (fun c => { c with sp := 0xFFFE, ime := true, pc := 0x0203 }) [] 16) = true := by decide +kernel

/-- V45-26, V45-28 -/
theorem test_rst :
    (gives [0xEF] (fun c => { c with sp := 0xDFFF }) []
      (fun c => { c with sp := 0xDFFD, pc := 0x0028 }) [(0xDFFD, 0x01), (0xDFFE, 0xC0)] 16 &&
    gives [0xFF] (fun c => { c with sp := 0xC802 }) []
      (fun c => { c with sp := 0xC800, pc := 0x0038 }) [(0xC800, 0x01), (0xC801, 0xC0)] 16) = true := by decide +kernel

/-- V46-01 -/
theorem test_nop :
    (gives [0x00] id [] (fun c => { c with pc := 0xC001 }) [] 4) = true := by decide +kernel

/-- V46-02, V46-05 -/
theorem test_halt :
    (gives [0x76] (fun c => { c with ime := true }) [(0xFFFF, 0x04), (0xFF0F, 0xE0)]
      (fun c => { c with halted := true, pc := 0xC001 }) [] 4 &&
    gives [0x76] (fun c => { c with ime := false }) [(0xFFFF, 0x04), (0xFF0F, 0xE1)]
      (fun c => { c with halted := true, pc := 0xC001 }) [] 4) = true := by decide +kernel

/-- V46-06 -/
theorem test_stop :
    (gives [0x10, 0x00] id [] (fun c => { c with pc := 0xC002 }) [] 4) = true := by decide +kernel

/-- V46-07, V46-08 -/
theorem test_di :
    (gives [0xF3] (fun c => { c with ime := true }) [] (fun c => { c with ime := false, pc := 0xC001 }) [] 4 &&
    gives [0xF3] (fun c => { c with ime := false, imePending := true }) []
      (fun c => { c with imePending := false, pc := 0xC001 }) [] 4) = true := by decide +kernel

/-- V46-09, V46-10 -/
theorem test_ei :
    (gives [0xFB] (fun c => { c with ime := false }) [] (fun c => { c with imePending := true, pc := 0xC001 }) [] 4 &&
    gives [0xFB] (fun c => { c with ime := true }) []
      (fun c => { c with imePending := true, pc := 0xC001 }) [] 4) = true := by decide +kernel

/-- V44-09, V44-10 -/
theorem test_rlcR :
    (gives [0xCB, 0x00] (fun c => { c with b := 0x85 }) []
      (fun c => { c with f := 0x10, b := 0x0B, pc := 0xC002 }) [] 8 &&
    gives [0xCB, 0x07] (fun c => { c with a := 0x00, f := 0x10 }) []
      (fun c => { c with f := 0x80, pc := 0xC002 }) [] 8) = true := by decide +kernel

/-- V44-11 -/
theorem test_rlcM :
    (gives [0xCB, 0x06] (fun c => { c with h := 0xC1, l := 0x00 }) [(0xC100, 0x80)]
      (fun c => { c with f := 0x10, pc := 0xC002 }) [(0xC100, 0x01)] 16) = true := by decide +kernel

/-- V44-12 -/
theorem test_rrcR :
    (gives [0xCB, 0x09] (fun c => { c with c := 0x01 }) []
      (fun c => { c with f := 0x10, c := 0x80, pc := 0xC002 }) [] 8) = true := by decide +kernel

/-- R236 by hand -/
theorem test_rrcM :
    (gives [0xCB, 0x0E] (fun c => { c with h := 0xC1, l := 0x00 }) [(0xC100, 0x01)]
      (fun c => { c with f := 0x10, pc := 0xC002 }) [(0xC100, 0x80)] 16) = true := by decide +kernel

/-- V44-13 -/
theorem test_rlR :
    (gives [0xCB, 0x15] (fun c => { c with l := 0x80, f := 0x00 }) []
      (fun c => { c with f := 0x90, l := 0x00, pc := 0xC002 }) [] 8) = true := by decide +kernel

/-- V44-14 -/
theorem test_rlM :
    (gives [0xCB, 0x16] (fun c => { c with h := 0xC1, l := 0x00, f := 0x10 }) [(0xC100, 0x11)]
      (fun c => { c with f := 0x00, pc := 0xC002 }) [(0xC100, 0x23)] 16) = true := by decide +kernel

/-- V44-15 -/
theorem test_rrR :
    (gives [0xCB, 0x1F] (fun c => { c with a := 0x01, f := 0x00 }) []
      (fun c => { c with f := 0x90, a := 0x00, pc := 0xC002 }) [] 8) = true := by decide +kernel

/-- V44-16 -/
theorem test_rrM :
    (gives [0xCB, 0x1E] (fun c => { c with h := 0xC1, l := 0x00, f := 0x10 }) [(0xC100, 0x8A)]
      (fun c => { c with f := 0x00, pc := 0xC002 }) [(0xC100, 0xC5)] 16) = true := by decide +kernel

/-- V44-17, V44-18 -/
theorem test_slaR :
    (gives [0xCB, 0x22] (fun c => { c with d := 0xFF }) []
      (fun c => { c with f := 0x10, d := 0xFE, pc := 0xC002 }) [] 8 &&
    gives [0xCB, 0x22] (fun c => { c with d := 0x80 }) []
      (fun c => { c with f := 0x90, d := 0x00, pc := 0xC002 }) [] 8) = true := by decide +kernel

/-- R239 by hand -/
theorem test_slaM :
    (gives [0xCB, 0x26] (fun c => { c with h := 0xC1, l := 0x00 }) [(0xC100, 0x80)]
      (fun c => { c with f := 0x90, pc := 0xC002 }) [(0xC100, 0x00)] 16) = true := by decide +kernel

/-- V44-19, V44-20 -/
theorem test_sraR :
    (gives [0xCB, 0x2F] (fun c => { c with a := 0x8A }) []
      (fun c => { c with f := 0x00, a := 0xC5, pc := 0xC002 }) [] 8 &&
    gives [0xCB, 0x2F] (fun c => { c with a := 0x01 }) []
      (fun c => { c with f := 0x90, a := 0x00, pc := 0xC002 }) [] 8) = true := by decide +kernel

/-- V44-21 -/
theorem test_sraM :
    (gives [0xCB, 0x2E] (fun c => { c with h := 0xC1, l := 0x00 }) [(0xC100, 0x80)]
      (fun c => { c with f := 0x00, pc := 0xC002 }) [(0xC100, 0xC0)] 16) = true := by decide +kernel

/-- V44-22 -/
theorem test_swapR :
    (gives [0xCB, 0x37] (fun c => { c with a := 0xF1, f := 0x10 }) []
      (fun c => { c with f := 0x00, a := 0x1F, pc := 0xC002 }) [] 8) = true := by decide +kernel

/-- V44-23 -/
theorem test_swapM :
    (gives [0xCB, 0x36] (fun c => { c with h := 0xC1, l := 0x00 }) [(0xC100, 0x00)]
      (fun c => { c with f := 0x80, pc := 0xC002 }) [] 16) = true := by decide +kernel

/-- V44-24, V44-25 -/
theorem test_srlR :
    (gives [0xCB, 0x3F] (fun c => { c with a := 0xFF }) []
      (fun c => { c with f := 0x10, a := 0x7F, pc := 0xC002 }) [] 8 &&
    gives [0xCB, 0x3B] (fun c => { c with e := 0x01 }) []
      (fun c => { c with f := 0x90, e := 0x00, pc := 0xC002 }) [] 8) = true := by decide +kernel

/-- R242 by hand -/
theorem test_srlM :
    (gives [0xCB, 0x3E] (fun c => { c with h := 0xC1, l := 0x00 }) [(0xC100, 0x01)]
      (fun c => { c with f := 0x90, pc := 0xC002 }) [(0xC100, 0x00)] 16) = true := by decide +kernel

/-- V44-26, V44-27 -/
theorem test_bitR :
    (gives [0xCB, 0x7F] (fun c => { c with a := 0x80, f := 0x10 }) []
      (fun c => { c with f := 0x30, pc := 0xC002 }) [] 8 &&
    gives [0xCB, 0x65] (fun c => { c with l := 0xEF, f := 0x40 }) []
      (fun c => { c with f := 0xA0, pc := 0xC002 }) [] 8) = true := by decide +kernel

/-- V44-28, V44-29 -/
theorem test_bitM :
    (gives [0xCB, 0x46] (fun c => { c with h := 0xC1, l := 0x00 }) [(0xC100, 0xFE)]
      (fun c => { c with f := 0xA0, pc := 0xC002 }) [] 12 &&
    gives [0xCB, 0x5E] (fun c => { c with h := 0x90, l := 0x00 }) [(0x9000, 0x00)]
      (fun c => { c with f := 0x20, pc := 0xC002 }) [] 12) = true := by decide +kernel

/-- V44-30 -/
theorem test_resR :
    (gives [0xCB, 0xBF] (fun c => { c with a := 0x80, f := 0xF0 }) []
      (fun c => { c with f := 0xF0, a := 0x00, pc := 0xC002 }) [] 8) = true := by decide +kernel

/-- V44-31 -/
theorem test_resM :
    (gives [0xCB, 0x86] (fun c => { c with h := 0xC1, l := 0x00 }) [(0xC100, 0xFF)]
      (fun c => { c with f := 0x00, pc := 0xC002 }) [(0xC100, 0xFE)] 16) = true := by decide +kernel

/-- V44-33 -/
theorem test_setR :
    (gives [0xCB, 0xFC] (fun c => { c with h := 0x01 }) []
      (fun c => { c with f := 0x00, h := 0x81, pc := 0xC002 }) [] 8) = true := by decide +kernel

/-- V44-32, V44-34 -/
theorem test_setM :
    (gives [0xCB, 0xDE] (fun c => { c with h := 0xC1, l := 0x00 }) [(0xC100, 0x00)]
      (fun c => { c with f := 0x00, pc := 0xC002 }) [(0xC100, 0x08)] 16 &&
    gives [0xCB, 0xD6] (fun c => { c with h := 0xFF, l := 0x07 }) [(0xFF07, 0xF9)]
      (fun c => { c with f := 0x00, pc := 0xC002 }) [(0xFF05, 0x01), (0xFF07, 0xFD)] 16) = true := by decide +kernel

/-! ### Sections 9 and 10: illegal opcodes, interrupts, HALT -/

/-- V46-13; and the standing fault. -/
theorem test_illegal_faults :
    (match step (start [0xDD] id []) with | .fault r => decide (r = .invalidOpcode 0xDD) | _ => false) = true ∧
    (match step (start [0x00] (fun c => { c with fault := some 0xDD }) []) with
      | .fault r => decide (r = .invalidOpcode 0xDD) | _ => false) = true := by decide +kernel

/-- Section 16: STOP under STOP_MODE = refuse. -/
theorem test_stop_refused :
    (match step { start [0x10, 0x00] id [] with params := { Params.recommended with stopMode := .refuse } } with
      | .refused r => decide (r = .stopHasNoMeaning) | _ => false) = true := by decide +kernel

/-- R104: the prefix row runs what its second byte selects (V44-22). -/
theorem test_prefixCb :
    (nextOf (exec (.prefixCb 0x37) (start [] (fun c => { c with a := 0xF1, f := 0x10 }) []))).map
      (fun t => (t.cpu.a, t.cpu.f, t.cycles)) = some (0x1F, 0x00, 8) := by decide +kernel

/-- S1 step 1: VBlank before Timer; PC on the stack. -/
theorem test_dispatch :
    gives [0x00] (fun c => { c with ime := true }) [(0xFFFF, 0x1F), (0xFF0F, 0x05)]
      (fun c => { c with ime := false, sp := 0xFFFC, pc := 0x0040 }) [(0xFFFC, 0x00), (0xFFFD, 0xC0), (0xFF0F, 0xE4)] 20 =
      true := by decide +kernel

/-- S2 step 2: the instruction after EI runs with IME set, before any dispatch. -/
theorem test_ei_takes_effect_after_one_instruction :
    gives [0x00] (fun c => { c with imePending := true }) [(0xFFFF, 0x04), (0xFF0F, 0x04)]
      (fun c => { c with ime := true, imePending := false, pc := 0xC001 }) [(0xFF0F, 0xE4)] 4 = true := by decide +kernel

/-- S4 step 2: a halted tick. S5 step 5: waking with IME = 0 costs nothing and dispatches nothing. -/
theorem test_halted :
    (gives [0x3C] (fun c => { c with halted := true }) [(0xFFFF, 0x04), (0xFF0F, 0x00)] id [] 4 &&
    gives [0x3C] (fun c => { c with halted := true }) [(0xFFFF, 0x04), (0xFF0F, 0x04)]
      (fun c => { c with halted := false, a := 0x02, pc := 0xC001 }) [(0xFF0F, 0xE4)] 4) = true := by decide +kernel

/-- S6b step 2: the opcode byte is its own operand. -/
theorem test_halt_bug :
    gives [0x3E, 0x14] (fun c => { c with haltBug := true }) []
      (fun c => { c with haltBug := false, a := 0x3E, pc := 0xC001 }) [] 8 = true := by decide +kernel

/-! ### Sections 11 to 19: the blocks -/

/-- T-07, T-18. -/
theorem test_timer_overflow :
    timerRun 8 ({ div := 0x0008, tima := 0xFF, tma := 0x23, tac := 5 }, false) =
      ({ div := 0x0010, tima := 0x23, tma := 0x23, tac := 5 }, true) ∧
    timerRun 24 ({ div := 0xFFF8, tima := 0xFF, tma := 0xFF, tac := 5 }, false) =
      ({ div := 0x0010, tima := 0xFF, tma := 0xFF, tac := 5 }, true) := by decide +kernel

/-- TD-04, TD-05. -/
theorem test_div_write :
    divWrite { div := 0x0200, tima := 0xFF, tma := 0x44, tac := 4 } =
      ({ div := 0x0000, tima := 0x44, tma := 0x44, tac := 4 }, true) ∧
    divWrite { div := 0x01FF, tima := 0x10, tma := 0x00, tac := 4 } =
      ({ div := 0x0000, tima := 0x10, tma := 0x00, tac := 4 }, false) := by decide +kernel

/-- D1 step 1: the copy is complete at the trigger, and the step's 12 cycles already count. -/
theorem test_dma_trigger :
    (nextOf (step (start [0xE0, 0x46] (fun c => { c with a := 0xC1 }) [(0xC100, 0x01), (0xC19F, 0xDE)]))).map
      (fun t => (t.oam.read 0, t.oam.read 159, t.dma.remaining, t.dma.blocked)) = some (0x01, 0xDE, 148, true) := by
  decide +kernel

/-- Section 12: line 143 dot 455 to line 144 dot 0. ST-05: the mode 1 condition. -/
theorem test_vblank_begins :
    ( let r := ppuDot Params.recommended [] []
        { ppuReset with line := 143, lineDot := 455, ly := 143, mode := .hblank, statEn := 0b0010 }
      (r.1.line, r.1.lineDot, r.1.ly, r.1.mode, r.1.frameComplete, r.2)) = (144, 0, 144, .vblank, true, 0b00011) := by
  decide +kernel

/-- ST-07: LY becomes 0 at line 153 dot 4. -/
theorem test_last_line :
    ( let r := ppuDot Params.recommended [] []
        { ppuReset with line := 153, lineDot := 3, ly := 153, mode := .vblank, statEn := 0b1000, lyc := 0 }
      (r.1.line, r.1.lineDot, r.1.ly, r.1.statLine, r.2)) = (153, 4, 0, true, 0b00010) := by decide +kernel

/-- M3-09 with the window, ten objects and SCX = 7; M3-02. -/
theorem test_mode3_length :
    mode3Length .formula 10 7 true = 289 ∧ mode3Length .formula 0 5 false = 177 := by decide

/-- Section 14: LCD off in mode 3 of line 80. -/
theorem test_lcd_off :
    ( let s := { start [] id [] with ppu := { ppuReset with line := 80, lineDot := 80, ly := 80, mode := .transfer } }
      let t := s.memWrite 0xFF40 0x11
      (t.ppu.ly, t.ppu.mode, t.ppu.lineDot, statRead t.ppu, t.ppu.frameComplete, t.ifReg)) =
      (0, .hblank, 0, 0x84, true, 0x01) := by decide +kernel

/-- Section 15, line 1: the example of R423, BGP = E4. -/
theorem test_rendering :
    ((List.range 10).map fun x =>
      pixelShade { ppuReset with bgp := 0xE4 }
        (linePixel [(0x10, 0x3C), (0x11, 0x7E), (0x1800, 0x01)] [] { ppuReset with bgp := 0xE4 } [] false 0 x)) =
      [0, 2, 3, 3, 3, 3, 2, 0, 0, 0] := by decide +kernel

/-- Section 16: SPRITE_SELECT, on three objects of which the last lies leftmost. -/
theorem test_object_order :
    sortObjs [(0, 16), (1, 40), (4, 16), (5, 32), (8, 16), (9, 24)] [0, 1, 2] = [2, 1, 0] ∧
    objOnLine [(0, 16)] 8 7 0 = true ∧ objOnLine [(0, 16)] 8 8 0 = false := by decide +kernel

/-- Section 17, lines 3, 4 and 7. -/
theorem test_serial :
    (serialAdvance 4095 (scWrite serialReset 0x81)).1.busy = true ∧
    (serialAdvance 4096 (scWrite { serialReset with sb := 0x5A } 0x81)).1.sb = 0xFF ∧
    (serialPulse { scWrite { serialReset with sb := 0x41, device := .script [0x42] } 0x80 with bits := 7 }) =
      ({ serialReset with sb := 0x42, device := .script [] }, true) := by decide +kernel

/-- Section 18, lines 1 to 3. -/
theorem test_joypad :
    p1Read { joypadReset with select := 0b10, left := true } = 0xED ∧
    (setButton { joypadReset with select := 0b10 } .left true).2 = true ∧
    (setButton { joypadReset with select := 0b10, left := true } .a true).2 = false := by decide +kernel

/-- Section 19: MBC1 writes 2000 <- E5, 4000 <- 01, then both windows in mode 1. -/
theorem test_mbc1 :
    ( let m := mbc1Write (mbc1Write (mbc1Write mbc1Reset 0x2000 0xE5) 0x4000 0x01) 0x6000 0x01
      let c : Cart := { cartReset with config := { cartReset.config with romBanks := 64 }, mapper := .mbc1 m }
      (cartRomIndex c 0x0000, cartRomIndex c 0x4000)) = (0x20 * 0x4000, 0x25 * 0x4000) := by decide +kernel

/-- Section 19: the MBC3 clock at the end of day 511; latching; R467. -/
theorem test_clock :
    clockCycles 4194304 { mbc3Reset with live := { rtcZero with s := 59, m := 59, h := 23, dl := 0xFF, day8 := true } } =
      { mbc3Reset with live := { rtcZero with carry := true } } ∧
    rtcDh { rtcZero with carry := true } = 0x80 ∧
    (mbc3Write { mbc3Reset with live := { rtcZero with s := 1 } } 0x6000 0x01).latched.s = 1 ∧
    (rtcWrite { mbc3Reset with rtcSub := 5 } 0x8 0xFF).live.s = 63 := by decide +kernel

/-- Section 19: MBC2 cells are nibbles and repeat; MBC5 selects bank 0 and a ninth bit. -/
theorem test_mbc2_mbc5 :
    ( let m : Mapper := .mbc2 { mbc2Reset with ramEnable := true }
      let c : Cart := { cartReset with config := { cartReset.config with ramSize := 512 }, mapper := m }
      cartReadRam (cartWriteRam c 0x000 0xAB) 0x200) = 0xFB ∧
    (mbc5Write false (mbc5Write false mbc5Reset 0x2000 0xFF) 0x3000 0x01).romBank = 0x1FF ∧
    (mbc5Write false mbc5Reset 0x2000 0x00).romBank = 0 := by decide +kernel

/-- R475: with a motor bit 3 selects no bank. R444: a 2 KB RAM repeats through the window. -/
theorem test_rumble_and_small_ram :
    (mbc5Write true mbc5Reset 0x4000 0x0F).ramBank = 7 ∧ (mbc5Write false mbc5Reset 0x4000 0x0F).ramBank = 15 ∧
    ( let c : Cart := { cartReset with config := { cartReset.config with ramSize := 0x800 } }
      cartReadRam (cartWriteRam c 0x0001 0x5A) 0x1801) = 0x5A := by decide +kernel

/-- R6, R511: a launch and a reset take RESET_PC and RESET_BGP from the parameters, and never a fault. -/
theorem test_reset_values_are_parameters :
    ( let rp := { ResetParams.recommended with
        cpu := { cpuReset with pc := 0x0000, fault := some 0xDD }, ppu := { ppuReset with bgp := 0x00 } }
      let s := State.launch cartReset { Params.recommended with resetValues := rp } .none none
      let t := (s.memWrite 0xFF47 0x55).hostReset false
      (s.cpu.pc, s.cpu.fault, s.ppu.bgp, t.cpu.pc, t.ppu.bgp)) = (0x0000, none, 0x00, 0x0000, 0x00) := by decide +kernel

/-- R441: a type byte of no scheme, and an image of another length, make no machine. -/
theorem test_load_errors :
    (match loadCart 0x8000 [(0x147, 0x20)] [] with | .error e => decide (e = .unknownType 0x20) | _ => false) = true ∧
    (match loadCart 0x4000 [] [] with | .error e => decide (e = .lengthMismatch) | _ => false) = true ∧
    (match loadCart 0x8000 [(0x147, 0x03), (0x149, 0x02)] [] with
      | .ok c => decide (c.config.ramSize = 0x2000 ∧ c.config.romBanks = 2) | _ => false) = true := by decide +kernel

/-! ### Witnesses: states and operands that meet every hypothesis of a statement together -/

/-- NOP at C000. -/
def nopState : State := start [0x00] id []

/-- The LCD off: VRAM and OAM are open. -/
def lcdOffState : State := start [0x00] id [(0xFF40, 0x11)]

/-- A transfer runs. -/
def dmaState : State := { start [0x00] id [] with dma := { remaining := 4, blocked := true, page := 0xC1 } }

/-- A cartridge with the given mapper. -/
def withMapper (m : Mapper) : State :=
  { start [0x00] id [] with cart := { cartReset with config := { cartReset.config with romBanks := 64 }, mapper := m } }

theorem witness_DecodeOfEncode : (Instr.setR 7 .a).wellFormed = true := by decide

/-- Both ways of having no dispatch. -/
theorem witness_StepRunsDecodedInstruction :
    ( let s := start [0x06, 0x9C] id []
      s.inputs = [] ∧ s.cpu.fault = none ∧ s.cpu.halted = false ∧ s.cpu.haltBug = false ∧ s.cpu.ime = false ∧
      decode (s.memRead .fetch0 s.cpu.pc) (s.memRead .fetch1 (s.cpu.pc + 1)) (s.memRead .fetch2 (s.cpu.pc + 2)) =
        .ldRN .b 0x9C) ∧
    ( let s := start [0x06, 0x9C] (fun c => { c with ime := true }) []
      s.inputs = [] ∧ s.cpu.fault = none ∧ s.cpu.halted = false ∧ s.cpu.haltBug = false ∧ s.pending = 0 ∧
      decode (s.memRead .fetch0 s.cpu.pc) (s.memRead .fetch1 (s.cpu.pc + 1)) (s.memRead .fetch2 (s.cpu.pc + 2)) =
        .ldRN .b 0x9C) := by decide +kernel

theorem witness_HaltBugRepeatsOpcodeByte :
    let s := start [0x3E, 0x14] (fun c => { c with haltBug := true }) []
    s.inputs = [] ∧ s.cpu.fault = none ∧ s.cpu.halted = false ∧ s.cpu.haltBug = true ∧ s.cpu.ime = false ∧
    decode (s.memRead .fetch0 s.cpu.pc) (s.memRead .fetch1 s.cpu.pc) (s.memRead .fetch2 (s.cpu.pc + 1)) =
      .ldRN .a 0x3E := by decide +kernel

/-- One state for each clause. -/
theorem witness_HaltedTickAndWake :
    ( let s := start [0x00] (fun c => { c with halted := true }) []
      s.inputs = [] ∧ s.cpu.fault = none ∧ s.cpu.halted = true ∧ s.ifReg &&& s.ie.setWidth 5 = 0) ∧
    ( let s := start [0x00] (fun c => { c with halted := true }) [(0xFFFF, 0x01)]
      s.inputs = [] ∧ s.cpu.fault = none ∧ s.cpu.halted = true ∧ s.ifReg &&& s.ie.setWidth 5 ≠ 0) := by decide +kernel

/-- The first and the last interrupt. -/
theorem witness_InterruptDispatch :
    ( let s := start [0x00] (fun c => { c with ime := true }) [(0xFFFF, 0x1F), (0xFF0F, 0x1F)]
      s.inputs = [] ∧ s.cpu.fault = none ∧ s.cpu.ime = true ∧ 0 < 5 ∧
      (s.ifReg &&& s.ie.setWidth 5).getLsbD 0 = true ∧ ∀ j, j < 0 → (s.ifReg &&& s.ie.setWidth 5).getLsbD j = false) ∧
    ( let s := start [0x00] (fun c => { c with ime := true }) [(0xFFFF, 0x1F), (0xFF0F, 0x10)]
      s.inputs = [] ∧ s.cpu.fault = none ∧ s.cpu.ime = true ∧ 4 < 5 ∧
      (s.ifReg &&& s.ie.setWidth 5).getLsbD 4 = true ∧
      ∀ j, j < 4 → (s.ifReg &&& s.ie.setWidth 5).getLsbD j = false) := by decide +kernel

theorem witness_IllegalOpcodesFault :
    (0xFD, Instr.illegalFD) ∈ ([(0xD3, .illegalD3), (0xDB, .illegalDB), (0xDD, .illegalDD), (0xE3, .illegalE3),
      (0xE4, .illegalE4), (0xEB, .illegalEB), (0xEC, .illegalEC), (0xED, .illegalED), (0xF4, .illegalF4),
      (0xFC, .illegalFC), (0xFD, .illegalFD)] : List (Byte × Instr)) ∧
    ( let s := start [0x00] (fun c => { c with fault := some 0xFD }) []
      s.inputs = [] ∧ s.cpu.fault = some 0xFD) := by decide +kernel

theorem witness_OnlyIllegalOpcodesFault :
    let s := start [0xDD] id []
    s.inputs = [] ∧ s.cpu.fault = none ∧
      (match step s with | .fault r => decide (r = .invalidOpcode 0xDD) | _ => false) = true := by decide +kernel

theorem witness_RefusalOnlyFromStop :
    exec (.stop 0x00) { nopState with params := { Params.recommended with stopMode := .refuse } } =
      .refused .stopHasNoMeaning ∧
    nopState.inputs = [] ∧ nopState.params.stopMode = .nop2 := ⟨rfl, by decide +kernel, by decide +kernel⟩

/-- R292's two settings. -/
theorem witness_SystemInstructions :
    nopState.params.stopMode = .nop2 ∧
    ({ nopState with params := { Params.recommended with stopMode := .refuse } } : State).params.stopMode = .refuse := by
  decide +kernel

theorem witness_OnlyNamedStoresChangeBlocks : ∃ t, exec (.push .bc) nopState = .next t := ⟨_, rfl⟩

/-- A PUSH to HRAM leaves WRAM out of reach, its own byte not. -/
theorem witness_MemoryFrame :
    (∃ t, exec (.push .bc) nopState = .next t) ∧
    State.outOfReach 0xC100 nopState (storesOf (resolved (.push .bc)) nopState) = true ∧
    State.outOfReach 0xFFFD nopState (storesOf (resolved (.push .bc)) nopState) = false :=
  ⟨⟨_, rfl⟩, by decide +kernel, by decide +kernel⟩

theorem witness_RegisterFrame :
    (∃ t, exec (.incR .b) nopState = .next t) ∧ Reg8.a ∉ destRegs (resolved (.incR .b)) ∧
    flagsWritten (resolved (.ldRR .b .c)) = 0 ∧ movesSp (resolved (.incR .b)) = false ∧
    movesIme (resolved (.incR .b)) = false ∧ Instr.incR .b ≠ .halt :=
  ⟨⟨_, rfl⟩, by decide, by decide, by decide, by decide, by decide⟩

/-- The LCD off, and a cartridge with the given mapper and RAM. -/
def withRam (m : Mapper) (ramSize : Nat) : State :=
  { lcdOffState with
    cart := { cartReset with config := { cartReset.config with ramSize := ramSize, hasClock := true }, mapper := m } }

/-- Both ends of every array, WRAM's first byte under its mirror, a 2 KB RAM under its first repeat, an MBC2 cell under its
last. -/
theorem witness_StoredByteReadsBack :
    (lcdOffState.memWf && lcdOffState.params.ramInit.vram.wf && lcdOffState.params.ramInit.wram.wf &&
      lcdOffState.params.ramInit.oam.wf && lcdOffState.params.ramInit.hram.wf &&
      lcdOffState.params.ramInit.eram.wf) = true ∧
    ([0x8000, 0x9FFF, 0xC000, 0xDFFF, 0xE000, 0xFDFF, 0xFE00, 0xFE9F, 0xFF80, 0xFFFE] : List Word).all
      (fun a => lcdOffState.isPlainRam a && !lcdOffState.isBlocked a) = true ∧
    lcdOffState.sameByte 0xC000 0xE000 = true ∧
    ( let s := withRam .noMapper 0x800
      s.isPlainRam 0xA000 = true ∧ s.isBlocked 0xA000 = false ∧ s.memWf = true ∧ s.sameByte 0xA000 0xA800 = true ∧
      s.sameByte 0xA000 0xA7FF = false) ∧
    ( let s := withRam (.mbc2 { mbc2Reset with ramEnable := true }) 512
      s.isMbc2Cell 0xA000 = true ∧ s.isBlocked 0xA000 = false ∧ s.memWf = true ∧ s.sameByte 0xA000 0xBE00 = true) := by
  decide +kernel

theorem witness_MirrorAndUnowned : 0 < 0x1E00 ∧ 0x1DFF < 0x1E00 ∧ 0 < 0x60 ∧ 0x5F < 0x60 := by decide

/-- The addresses around HRAM, under a transfer. -/
theorem witness_DmaLeavesOnlyHighRam :
    dmaState.dma.blocked = true ∧ ¬ (0xFF80 ≤ (0xFF7F : Word).toNat ∧ (0xFF7F : Word).toNat ≤ 0xFFFE) ∧
    ¬ (0xFF80 ≤ (0xFFFF : Word).toNat ∧ (0xFFFF : Word).toNat ≤ 0xFFFE) ∧
    0xFF80 ≤ (0xFF80 : Word).toNat ∧ (0xFFFE : Word).toNat ≤ 0xFFFE := by decide +kernel

/-- Blocked and open, at both ends of VRAM and OAM. -/
theorem witness_PpuModeBlocking :
    nopState.dma.blocked = false ∧ nopState.ppu.lcdc.getLsbD 7 = true ∧ nopState.ppu.mode = .oamScan ∧
    nopState.params.vramBlockedMode2 = true ∧ lcdOffState.dma.blocked = false ∧
    lcdOffState.ppu.lcdc.getLsbD 7 = false ∧
    0x8000 ≤ (0x8000 : Word).toNat ∧ (0x9FFF : Word).toNat ≤ 0x9FFF ∧ 0xFE00 ≤ (0xFE00 : Word).toNat ∧
    (0xFE9F : Word).toNat ≤ 0xFE9F := by decide +kernel

/-- A step that goes on: the premise of every statement about what a step keeps. -/
theorem witness_step_goes_on : ∃ t, step nopState = .next t := exists_next (by decide +kernel)

theorem witness_RomNeverChanges : ∃ t, step nopState = .next t := witness_step_goes_on

/-- Both ends of every range of the rule; MBC5 without and with a motor. -/
theorem witness_Mbc1AndMbc5Banks :
    (withMapper .noMapper).dma.blocked = false ∧ (withMapper .noMapper).cart.mapper = .noMapper ∧
    (withMapper (.mbc1 mbc1Reset)).dma.blocked = false ∧ (withMapper (.mbc1 mbc1Reset)).cart.mapper = .mbc1 mbc1Reset ∧
    (withMapper (.mbc5 mbc5Reset)).dma.blocked = false ∧ (withMapper (.mbc5 mbc5Reset)).cart.mapper = .mbc5 mbc5Reset ∧
    (withMapper (.mbc5 mbc5Reset)).cart.config.rumble = false ∧
    ( let s := { nopState with
        cart := { cartReset with config := { cartReset.config with rumble := true }, mapper := .mbc5 mbc5Reset } }
      s.dma.blocked = false ∧ s.cart.mapper = .mbc5 mbc5Reset ∧ s.cart.config.rumble = true) ∧
    ([0x0000, 0x1FFF, 0x2000, 0x2FFF, 0x3000, 0x3FFF, 0x4000, 0x5FFF, 0x6000, 0x7FFF] : List Word).all
      (fun a => decide (a.toNat < 0x8000)) = true := by decide +kernel

theorem witness_Mbc2AndMbc3Banks :
    (withMapper (.mbc2 mbc2Reset)).dma.blocked = false ∧ (withMapper (.mbc2 mbc2Reset)).cart.mapper = .mbc2 mbc2Reset ∧
    (withMapper (.mbc3 mbc3Reset)).dma.blocked = false ∧ (withMapper (.mbc3 mbc3Reset)).cart.mapper = .mbc3 mbc3Reset ∧
    ([0x0000, 0x00FF, 0x0100, 0x1FFF, 0x2000, 0x3FFF, 0x4000, 0x5FFF, 0x6000, 0x7FFF] : List Word).all
      (fun a => decide (a.toNat < 0x8000)) = true := by decide +kernel

/-- Every scheme with its window open; the MBC3 selections on both sides of each limit; both ends of the window. -/
theorem witness_CartridgeRamWindow :
    ([.noMapper, .mbc1 { mbc1Reset with ramEnable := true, mode := true, bank2 := 3 },
      .mbc2 { mbc2Reset with ramEnable := true }, .mbc3 { mbc3Reset with ramEnable := true, ramSel := 3 },
      .mbc3 { mbc3Reset with ramEnable := true, ramSel := 4 }, .mbc3 { mbc3Reset with ramEnable := true, ramSel := 7 },
      .mbc3 { mbc3Reset with ramEnable := true, ramSel := 13 },
      .mbc5 { mbc5Reset with ramEnable := true, ramBank := 15 }] : List Mapper).all
      (fun m => !(withRam m 0x8000).dma.blocked && decide ((withRam m 0x8000).cart.mapper = m)) = true ∧
    (withRam .noMapper 0x8000).cart.config.ramSize ≠ 0 ∧ nopState.cart.config.ramSize = 0 ∧
    ¬ (4 : BitVec 4).toNat ≤ 3 ∧ (7 : BitVec 4).toNat < 8 ∧ 12 < (13 : BitVec 4).toNat ∧
    0xA000 ≤ (0xA000 : Word).toNat ∧ (0xBFFF : Word).toNat ≤ 0xBFFF := by decide +kernel

/-- Each of the five registers selected. -/
theorem witness_ClockRegisters :
    ([8, 9, 10, 11, 12] : List (BitVec 4)).all (fun sel =>
      let m := { mbc3Reset with ramEnable := true, ramSel := sel }
      !(withRam (.mbc3 m) 0x8000).dma.blocked && decide ((withRam (.mbc3 m) 0x8000).cart.mapper = .mbc3 m) &&
      (withRam (.mbc3 m) 0x8000).cart.config.hasClock && m.ramEnable) = true ∧
    0xA000 ≤ (0xA000 : Word).toNat ∧ (0xBFFF : Word).toNat ≤ 0xBFFF := by decide +kernel

/-- The last cycle of the last second of a day. -/
theorem witness_ClockCountsSeconds :
    let m := { mbc3Reset with rtcSub := 4194303, live := { rtcZero with s := 59, m := 59, h := 23, dl := 0xFF, day8 := true } }
    m.rtcSub < 4194304 ∧ m.live.s.toNat < 60 ∧ m.live.m.toNat < 60 ∧ m.live.h.toNat < 24 := by decide +kernel

/-- Every selection. -/
theorem witness_OneTickPerPeriod :
    ([(0, 1024), (1, 16), (2, 64), (3, 256)] : List (Nat × Nat)).all
      (fun p => decide (({ timerReset with tac := BitVec.ofNat 3 (4 + p.1) } : Timer).tac = BitVec.ofNat 3 (4 + p.1))) =
      true := by decide

theorem witness_DivWriteGlitch : nopState.dma.blocked = false := by decide +kernel

theorem witness_DmaTrigger :
    nopState.dma.blocked = false ∧ nopState.memWf = true ∧
    (nopState.params.ramInit.vram.wf && nopState.params.ramInit.wram.wf && nopState.params.ramInit.oam.wf &&
      nopState.params.ramInit.hram.wf && nopState.params.ramInit.eram.wf) = true := by decide +kernel

/-- Off, on, and neither. -/
theorem witness_LcdOffAndOn :
    nopState.dma.blocked = false ∧ nopState.ppu.lcdc.getLsbD 7 = true ∧ (0x11 : Byte).getLsbD 7 = false ∧
    lcdOffState.dma.blocked = false ∧ lcdOffState.ppu.lcdc.getLsbD 7 = false ∧ (0x91 : Byte).getLsbD 7 = true ∧
    nopState.ppu.lcdc.getLsbD 7 = (0x91 : Byte).getLsbD 7 := by decide +kernel

/-- A PPU one dot before V-Blank, one before a new frame, and one at reset. -/
theorem witness_Ppu_Inv :
    ({ ppuReset with line := 143, lineDot := 455, ly := 143, mode := .hblank } : Ppu).Inv ∧
    ({ ppuReset with line := 153, lineDot := 455, ly := 0, mode := .vblank } : Ppu).Inv ∧ ppuReset.Inv := by
  unfold Ppu.Inv
  decide +kernel

theorem witness_PpuPlaceAndVBlank :
    ({ ppuReset with line := 143, lineDot := 455, ly := 143, mode := .hblank } : Ppu).Inv ∧
    lcdOn { ppuReset with line := 143, lineDot := 455, ly := 143, mode := .hblank } = true :=
  ⟨witness_Ppu_Inv.1, by decide⟩

theorem witness_StatLineEdges : ppuReset.Inv ∧ lcdOn ppuReset = true := ⟨witness_Ppu_Inv.2.2, by decide⟩

/-- The two sides of the last cycle. -/
theorem witness_SerialLoopback :
    ({ nopState with serial := { serialReset with device := echoDevice } } : State).dma.blocked = false ∧
    ({ nopState with serial := { serialReset with device := echoDevice } } : State).serial.device = echoDevice ∧
    4095 < 4096 ∧ 4096 ≤ 4096 := ⟨by decide +kernel, rfl, by decide, by decide⟩

/-- Every mapper, with its bank registers moved away from the reset values. -/
theorem witness_ResetLeaves :
    nopState.params.resetValues = ResetParams.recommended ∧
    ((withMapper (.mbc1 { mbc1Reset with bank1 := 5 })).hostReset true).cart.mapper = .mbc1 mbc1Reset ∧
    ((withMapper (.mbc2 { mbc2Reset with romBank := 5 })).hostReset true).cart.mapper = .mbc2 mbc2Reset ∧
    ((withMapper (.mbc3 { mbc3Reset with romBank := 5 })).hostReset true).cart.mapper = .mbc3 mbc3Reset ∧
    ((withMapper (.mbc5 { mbc5Reset with romBank := 5 })).hostReset true).cart.mapper = .mbc5 mbc5Reset := by
  decide +kernel

theorem witness_StepKeepsMemoryCanonical : nopState.MemInv ∧ ∃ t, step nopState = .next t := by
  refine ⟨?_, witness_step_goes_on⟩
  unfold State.MemInv
  decide +kernel

theorem witness_StepKeepsFlagNibbleZero : nopState.FlagInv ∧ ∃ t, step nopState = .next t := by
  refine ⟨?_, witness_step_goes_on⟩
  unfold State.FlagInv
  decide +kernel

/-- During a transfer and outside one. -/
theorem witness_StepKeepsDmaWindow :
    (nopState.DmaInv ∧ ∃ t, step nopState = .next t) ∧ (dmaState.DmaInv ∧ ∃ t, step dmaState = .next t) := by
  refine ⟨⟨?_, witness_step_goes_on⟩, ?_, exists_next (by decide +kernel)⟩ <;>
  · unfold State.DmaInv Dma.Inv
    decide +kernel

/-- With the LCD on and off. -/
theorem witness_StepKeepsPpuPlace :
    (nopState.PpuInv ∧ ∃ t, step nopState = .next t) ∧ (lcdOffState.PpuInv ∧ ∃ t, step lcdOffState = .next t) := by
  refine ⟨⟨?_, witness_step_goes_on⟩, ?_, exists_next (by decide +kernel)⟩ <;>
  · unfold State.PpuInv Ppu.Inv
    decide +kernel

theorem witness_StepKeepsDevices :
    (withMapper (.mbc3 mbc3Reset)).DeviceInv ∧ ∃ t, step (withMapper (.mbc3 mbc3Reset)) = .next t := by
  refine ⟨⟨?_, ?_⟩, exists_next (by decide +kernel)⟩
  · show (1 : BitVec 7) ≠ 0 ∧ 0 < cyclesPerSecond
    decide
  · unfold Serial.Inv ResetParams.BankInv
    decide +kernel

/-- With the bug pending. -/
theorem witness_StepKeepsHaltBugUndispatched :
    let s := start [0x00] (fun c => { c with haltBug := true }) []
    s.HaltBugInv ∧ s.cpu.haltBug = true ∧ ∃ t, step s = .next t := by
  refine ⟨?_, by decide +kernel, exists_next (by decide +kernel)⟩
  unfold State.HaltBugInv Cpu.HaltBugInv
  decide +kernel

end Sys2Proof.Tests
end

/-! What an instruction that answers a next state may do: the row `PREFIX_CB` and the conditional rows, the blocks outside the
CPU, and the CPU. Every instruction's meaning is inspected here once; the claims about all instructions follow from
`exec_blocks` and `exec_cpuFrame`. -/

namespace Sys2Proof.Machine

/-! ### The row `PREFIX_CB`, R104 -/

/-- An operand code chooses between the two forms of an instruction as it chooses between their meanings. -/
theorem exec_regOrMem (code : Nat) (r : Reg8 → Instr) (m : Instr) (s : State) :
    exec (regOrMem code r m) s = onOperand code (fun x => exec (r x)) (exec m) s := by
  unfold regOrMem onOperand
  cases reg8Of code <;> rfl

/-- By the fields x2 and y2 (R111): in each row of the extended set the two sides name one operand form. -/
theorem exec_prefixCb (op2 : Byte) (s : State) : exec (.prefixCb op2) s = exec (decodeCb op2) s := by
  change execPrefixCb op2 s = _
  unfold execPrefixCb decodeCb
  generalize fieldX op2 = x, fieldY op2 = y
  match x with
  | 0 =>
    match y with
    | 0 | 1 | 2 | 3 | 4 | 5 | 6 | _ + 7 => exact Eq.trans (by rfl) (exec_regOrMem _ _ _ s).symm
  | 1 | 2 | _ + 3 => exact Eq.trans (by rfl) (exec_regOrMem _ _ _ s).symm

theorem exec_resolved (i : Instr) (s : State) : exec (resolved i) s = exec i s := by
  cases i
  case prefixCb op2 => exact (exec_prefixCb op2 s).symm
  all_goals rfl

theorem decodeCb_wellFormed_ne_halt : ∀ op2, (decodeCb op2).wellFormed = true ∧ decodeCb op2 ≠ .halt := by decide +kernel

theorem resolved_wellFormed (i : Instr) : (resolved i).wellFormed = true := by
  cases i
  case prefixCb op2 => exact (decodeCb_wellFormed_ne_halt op2).1
  all_goals rfl

theorem resolved_ne_halt {i : Instr} (h : i ≠ .halt) : resolved i ≠ .halt := by
  cases i
  case prefixCb op2 => exact (decodeCb_wellFormed_ne_halt op2).2
  all_goals exact h

/-! ### Rows with two outcomes -/

/-- A meaning that answers by a condition answers one of its two states. -/
theorem ite_next_cases {c : Prop} [Decidable c] {a b t : State}
    (h : (if c then .next a else .next b : Result) = .next t) : (c ∧ t = a) ∨ (¬c ∧ t = b) := by
  split at h
  next hc => exact .inl ⟨hc, (Host.Outcome.next.inj h).symm⟩
  next hc => exact .inr ⟨hc, (Host.Outcome.next.inj h).symm⟩

/-- R292: a STOP that goes on is a NOP. -/
theorem execStop_next {n : Byte} {s t : State} (h : execStop n s = .next t) : t = s.took 4 := by
  unfold execStop at h
  split at h
  · exact (Host.Outcome.next.inj h).symm
  · cases h

/-! ### Outside the CPU: nothing but the stores the instruction names -/

/-- `t` is `u` but for the CPU and the cycle count. -/
def State.SameBlocks (u t : State) : Prop := t = { u with cpu := t.cpu, cycles := t.cycles }

namespace State.SameBlocks

theorem update {u t : State} (h : u.SameBlocks t) (c : Cpu) (n : Nat) :
    u.SameBlocks { t with cpu := c, cycles := n } := by
  unfold SameBlocks at h
  rw [h]; rfl

theorem setReg (s : State) (r : Reg8) (v : Byte) : s.SameBlocks (s.setReg r v) := by cases r <;> rfl

theorem setPair (s : State) (p : Pair) (v : Word) : s.SameBlocks (s.setPair p v) := by cases p <;> rfl

theorem pop (s : State) (q : StackPair) (v : Word) : s.SameBlocks (s.popped.setStackPair q v) := by cases q <;> rfl

theorem push16 (s : State) (v : Word) : (s.storeAll (s.pushStores v)).SameBlocks (s.push16 v) := by
  rw [State.push16_eq]; rfl

end State.SameBlocks

theorem exec_blocks_of_wellFormed {i : Instr} {s t : State} (hi : i.wellFormed = true) (h : exec i s = .next t) :
    (s.storeAll (storesOf i s)).SameBlocks t := by
  cases i
  case prefixCb => cases hi
  case illegalD3 | illegalDB | illegalDD | illegalE3 | illegalE4 | illegalEB | illegalEC | illegalED | illegalF4
      | illegalFC | illegalFD => cases h
  case ldRR d _ | ldRN d _ | ldRM d | incR d | decR d | rlcR d | rrcR d | rlR d | rrR d | slaR d | sraR d | swapR d
      | srlR d | resR _ d | setR _ d =>
    cases h
    exact (State.SameBlocks.setReg s d _).update _ _
  case ldRrNn p _ | incRr p | decRr p =>
    cases h
    exact (State.SameBlocks.setPair s p _).update _ _
  case pop q =>
    cases h
    exact (State.SameBlocks.pop s q _).update _ _
  case push | callNn | rst =>
    cases h
    exact (State.SameBlocks.push16 s _).update _ _
  case callCcNn cc _ =>
    change (s.storeAll (if s.cond cc then s.pushStores s.cpu.pc else [])).SameBlocks t
    obtain ⟨hc, rfl⟩ | ⟨hc, rfl⟩ := ite_next_cases h
    · rw [if_pos hc]
      exact (State.SameBlocks.push16 s _).update _ _
    · rw [if_neg hc]; rfl
  case jpCcNn | jrCcE | retCc | halt | ei =>
    obtain ⟨-, rfl⟩ | ⟨-, rfl⟩ := ite_next_cases h <;> rfl
  case stop n =>
    obtain rfl := execStop_next (n := n) h
    rfl
  -- The rest update the CPU and at most store to memory, in the words of `storesOf`.
  all_goals cases h; rfl

/-- R81: what an answering instruction leaves outside the CPU, the row `PREFIX_CB` included. -/
theorem exec_blocks {i : Instr} {s t : State} (h : exec i s = .next t) :
    (s.storeAll (storesOf (resolved i) s)).SameBlocks t :=
  exec_blocks_of_wellFormed (resolved_wellFormed i) ((exec_resolved i s).trans h)

/-- What every store keeps, of the blocks alone, an instruction keeps. -/
theorem exec_ind (P : State → Prop) (hcpu : ∀ s c n, P s → P { s with cpu := c, cycles := n })
    (hstore : ∀ s a v, P s → P (s.memWrite a v)) {i : Instr} {s t : State} (h : P s) (hx : exec i s = .next t) :
    P t := by
  rw [exec_blocks hx]
  exact hcpu _ _ _ (State.storeAll_ind P hstore _ _ h)

theorem exec_params {i : Instr} {s t : State} (h : exec i s = .next t) : t.params = s.params :=
  exec_ind (·.params = s.params) (fun _ _ _ e => e) (fun u a v e => (State.memWrite_params u a v).trans e) rfl h

/-! ### The flag byte, bit by bit (R24) -/

theorem mkF_getLsbD : ∀ z n h c : Bool, (mkF z n h c).getLsbD 7 = z ∧ (mkF z n h c).getLsbD 6 = n ∧
    (mkF z n h c).getLsbD 5 = h ∧ (mkF z n h c).getLsbD 4 = c := by decide

theorem mkF_and_low : ∀ z n h c : Bool, mkF z n h c &&& 0x0F = 0 := by decide

theorem maskF_eq_mkF : ∀ v : Byte, maskF v = mkF (flagZ v) (flagN v) (flagH v) (flagC v) := by decide +kernel

/-- Flags built with those of `f` where `w` has no bit agree with `f` there. -/
theorem mkF_and_kept {z n h c : Bool} {f w : Byte} (hz : w.getLsbD 7 = false → z = flagZ f)
    (hn : w.getLsbD 6 = false → n = flagN f) (hh : w.getLsbD 5 = false → h = flagH f)
    (hc : w.getLsbD 4 = false → c = flagC f) : mkF z n h c &&& (0xF0 &&& ~~~w) = f &&& (0xF0 &&& ~~~w) := by
  obtain ⟨ez, en, eh, ec⟩ := mkF_getLsbD z n h c
  have low : ∀ j, j < 4 → (0xF0#8).getLsbD j = false := by decide
  have high : ∀ j, j < 8 → 4 ≤ j → w.getLsbD j = false → (mkF z n h c).getLsbD j = f.getLsbD j := by
    intro j hj h4 hw
    obtain rfl | rfl | rfl | rfl : j = 4 ∨ j = 5 ∨ j = 6 ∨ j = 7 := by omega
    · exact ec.trans (hc hw)
    · exact eh.trans (hh hw)
    · exact en.trans (hn hw)
    · exact ez.trans (hz hw)
  apply BitVec.eq_of_getLsbD_eq
  intro j hj
  by_cases h4 : 4 ≤ j
  · cases hw : w.getLsbD j
    · simp only [BitVec.getLsbD_and, high j hj h4 hw]
    · simp [hw]
  · simp [low j (by omega)]

/-! ### In the CPU: what an instruction may change

`CpuFrame` lists what may differ between two states' CPUs. Each update of State keeps it, if the lists allow the update; the
frame of an instruction's meaning is built along the updates it is made of. -/

/-- The instruction whose rule writes `halted` and `halt_bug` (R291). -/
def movesHalt : Instr → Bool
  | .halt => true
  | _ => false

theorem movesHalt_eq_false {i : Instr} (h : i ≠ .halt) : movesHalt i = false := by
  cases i
  case halt => exact absurd rfl h
  all_goals rfl

/-- From `s` to `t` no 8-bit register changes but those of `regs`, no flag but the bits of `w`; SP, the IME bits and the
HALT bits change only where `sp`, `ime`, `halt` say so, and the fault never. A new F has a zero low nibble. PC is free. -/
structure CpuFrame (regs : List Reg8) (w : Byte) (sp ime halt : Bool) (s t : State) : Prop where
  reg : ∀ r, r ∉ regs → t.reg r = s.reg r
  flags : t.cpu.f &&& (0xF0 &&& ~~~w) = s.cpu.f &&& (0xF0 &&& ~~~w)
  f : w = 0 → t.cpu.f = s.cpu.f
  nibble : t.cpu.f = s.cpu.f ∨ t.cpu.f &&& 0x0F = 0
  sp : sp = false → t.cpu.sp = s.cpu.sp
  ime : ime = false → t.cpu.ime = s.cpu.ime ∧ t.cpu.imePending = s.cpu.imePending
  halt : halt = false → t.cpu.halted = s.cpu.halted ∧ t.cpu.haltBug = s.cpu.haltBug
  fault : t.cpu.fault = s.cpu.fault

theorem State.reg_congr {s t : State} (h : t.cpu = s.cpu) (r : Reg8) : t.reg r = s.reg r := by
  cases r <;> simp only [State.reg, h]

namespace CpuFrame
variable {regs : List Reg8} {w : Byte} {sp ime halt : Bool} {s u t : State}

theorem refl (s : State) : CpuFrame regs w sp ime halt s s :=
  ⟨fun _ _ => rfl, rfl, fun _ => rfl, .inl rfl, fun _ => rfl, fun _ => ⟨rfl, rfl⟩, fun _ => ⟨rfl, rfl⟩, rfl⟩

theorem of_cpu_eq (h : CpuFrame regs w sp ime halt s u) (e : t.cpu = u.cpu) : CpuFrame regs w sp ime halt s t where
  reg r hr := (State.reg_congr e r).trans (h.reg r hr)
  flags := by rw [e]; exact h.flags
  f := by rw [e]; exact h.f
  nibble := by rw [e]; exact h.nibble
  sp := by rw [e]; exact h.sp
  ime := by rw [e]; exact h.ime
  halt := by rw [e]; exact h.halt
  fault := by rw [e]; exact h.fault

theorem took (h : CpuFrame regs w sp ime halt s u) (n : Nat) : CpuFrame regs w sp ime halt s (u.took n) :=
  h.of_cpu_eq rfl

theorem memWrite (h : CpuFrame regs w sp ime halt s u) (a : Word) (v : Byte) :
    CpuFrame regs w sp ime halt s (u.memWrite a v) :=
  h.of_cpu_eq (State.memWrite_cpu u a v)

theorem setPc (h : CpuFrame regs w sp ime halt s u) (v : Word) : CpuFrame regs w sp ime halt s (u.setPc v) :=
  { h with reg := fun r hr => (State.reg_setPc u v r).trans (h.reg r hr) }

theorem setSp (h : CpuFrame regs w true ime halt s u) (v : Word) : CpuFrame regs w true ime halt s (u.setSp v) :=
  { h with
    reg := fun r hr => (State.reg_setSp u v r).trans (h.reg r hr)
    sp := nofun }

theorem push16 (h : CpuFrame regs w true ime halt s u) (v : Word) : CpuFrame regs w true ime halt s (u.push16 v) :=
  (h.setSp (u.cpu.sp - 2)).of_cpu_eq (by rw [State.push16_eq]; rfl)

theorem setReg (h : CpuFrame regs w sp ime halt s u) (d : Reg8) (v : Byte) (hd : d ∈ regs := by simp) :
    CpuFrame regs w sp ime halt s (u.setReg d v) where
  reg r hr := (State.reg_setReg_of_ne u v (by rintro rfl; exact hr hd)).trans (h.reg r hr)
  flags := by cases d <;> exact h.flags
  f := by cases d <;> exact h.f
  nibble := by cases d <;> exact h.nibble
  sp := by cases d <;> exact h.sp
  ime := by simpa using h.ime
  halt := by simpa using h.halt
  fault := by simpa using h.fault

theorem setHl (h : CpuFrame regs w sp ime halt s u) (v : Word) (hh : .h ∈ regs := by simp)
    (hl : .l ∈ regs := by simp) : CpuFrame regs w sp ime halt s (u.setHl v) :=
  ((h.setReg .h (hiByte v) hh).setReg .l (loByte v) hl).of_cpu_eq rfl

/-- The two bits of DI, EI and RETI. -/
theorem setIme (h : CpuFrame regs w sp true halt s u) (x y : Bool) :
    CpuFrame regs w sp true halt s { u with cpu := { u.cpu with ime := x, imePending := y } } :=
  { h with
    reg := fun r hr => (by cases r <;> rfl : _ = u.reg r).trans (h.reg r hr)
    ime := nofun }

/-- The two bits of HALT. -/
theorem setHalt (h : CpuFrame regs w sp ime true s u) (x y : Bool) :
    CpuFrame regs w sp ime true s { u with cpu := { u.cpu with halted := x, haltBug := y } } :=
  { h with
    reg := fun r hr => (by cases r <;> rfl : _ = u.reg r).trans (h.reg r hr)
    halt := nofun }

theorem setF (h : CpuFrame regs w sp ime halt s u) {z n hf c : Bool} {f : Byte} (e : f = mkF z n hf c)
    (hw : w ≠ 0 := by simp)
    (hz : w.getLsbD 7 = false → z = flagZ s.cpu.f := by simp)
    (hn : w.getLsbD 6 = false → n = flagN s.cpu.f := by simp)
    (hh : w.getLsbD 5 = false → hf = flagH s.cpu.f := by simp)
    (hc : w.getLsbD 4 = false → c = flagC s.cpu.f := by simp) : CpuFrame regs w sp ime halt s (u.setF f) :=
  { h with
    reg := fun r hr => (State.reg_setF u f r).trans (h.reg r hr)
    flags := by rw [e]; exact mkF_and_kept hz hn hh hc
    f := fun h0 => absurd h0 hw
    nibble := .inr (by rw [e]; exact mkF_and_low z n hf c) }

theorem setPair (s : State) (p : Pair) (v : Word) (n : Nat) :
    CpuFrame (destRegs.pairRegs p) w (p == .sp) ime halt s ((s.setPair p v).took n) := by
  have h (regs) : CpuFrame regs w false ime halt s s := refl s
  cases p
  case bc => exact (((h [.b, .c]).setReg .b (hiByte v)).setReg .c (loByte v)).of_cpu_eq rfl
  case de => exact (((h [.d, .e]).setReg .d (hiByte v)).setReg .e (loByte v)).of_cpu_eq rfl
  case hl => exact ((h [.h, .l]).setHl v).took n
  case sp => exact ((refl s).setSp v).took n

theorem pop (s : State) (q : StackPair) (v : Word) (n : Nat) :
    CpuFrame (destRegs (.pop q)) (flagsWritten (.pop q)) true ime halt s ((s.popped.setStackPair q v).took n) := by
  have h (regs w) : CpuFrame regs w true ime halt s s.popped := (refl s).setSp _
  cases q
  case bc => exact (((h [.b, .c] 0).setReg .b (hiByte v)).setReg .c (loByte v)).of_cpu_eq rfl
  case de => exact (((h [.d, .e] 0).setReg .d (hiByte v)).setReg .e (loByte v)).of_cpu_eq rfl
  case hl => exact ((h [.h, .l] 0).setHl v).took n
  case af => exact (((h [.a] 0xF0).setReg .a (hiByte v)).setF (maskF_eq_mkF (loByte v))).of_cpu_eq rfl

end CpuFrame

theorem exec_cpuFrame_of_wellFormed {i : Instr} {s t : State} (hi : i.wellFormed = true) (h : exec i s = .next t) :
    CpuFrame (destRegs i) (flagsWritten i) (movesSp i) (movesIme i) (movesHalt i) s t := by
  cases i
  case prefixCb => cases hi
  case illegalD3 | illegalDB | illegalDD | illegalE3 | illegalE4 | illegalEB | illegalEC | illegalED | illegalF4
      | illegalFC | illegalFD => cases h
  -- 8-bit loads
  case ldRR d _ | ldRN d _ | ldRM d | resR _ d | setR _ d =>
    cases h
    change CpuFrame [d] 0x00 false false false s _
    exact ((CpuFrame.refl s).setReg d _).took _
  case ldABc | ldADe | ldANn | ldhAC | ldhAN =>
    cases h
    change CpuFrame [.a] 0x00 false false false s _
    exact ((CpuFrame.refl s).setReg .a _).took _
  case ldAHli | ldAHld =>
    cases h
    change CpuFrame [.a, .h, .l] 0x00 false false false s _
    exact (((CpuFrame.refl s).setReg .a _).setHl _).took _
  case ldMR | ldMN | ldBcA | ldDeA | ldNnA | ldhCA | ldhNA | resM | setM =>
    cases h
    change CpuFrame [] 0x00 false false false s _
    exact ((CpuFrame.refl s).memWrite _ _).took _
  case ldHliA | ldHldA =>
    cases h
    change CpuFrame [.h, .l] 0x00 false false false s _
    exact (((CpuFrame.refl s).memWrite _ _).setHl _).took _
  -- 16-bit loads and the stack
  case ldRrNn p _ | incRr p | decRr p =>
    cases h
    have fr := CpuFrame.setPair (w := 0x00) (ime := false) (halt := false) s p
    cases p <;> exact fr _ _
  case ldNnSp =>
    cases h
    change CpuFrame [] 0x00 false false false s _
    exact (((CpuFrame.refl s).memWrite _ _).memWrite _ _).took _
  case ldSpHl =>
    cases h
    change CpuFrame [] 0x00 true false false s _
    exact ((CpuFrame.refl s).setSp _).took _
  case ldHlSpE =>
    cases h
    change CpuFrame [.h, .l] 0xF0 false false false s _
    exact (((CpuFrame.refl s).setHl _).setF rfl).took _
  case push =>
    cases h
    change CpuFrame [] 0x00 true false false s _
    exact ((CpuFrame.refl s).push16 _).took _
  case pop q => cases h; exact CpuFrame.pop s q _ _
  -- arithmetic and logic
  case addR | addM | addN | adcR | adcM | adcN | subR | subM | subN | sbcR | sbcM | sbcN | andR | andM | andN | xorR
      | xorM | xorN | orR | orM | orN | rlca | rrca | rla | rra =>
    cases h
    change CpuFrame [.a] 0xF0 false false false s _
    exact (((CpuFrame.refl s).setReg .a _).setF rfl).took _
  case cpR | cpM | cpN =>
    cases h
    change CpuFrame [] 0xF0 false false false s _
    exact ((CpuFrame.refl s).setF rfl).took _
  case incR d | decR d =>
    cases h
    change CpuFrame [d] 0xE0 false false false s _
    exact (((CpuFrame.refl s).setReg d _).setF rfl).took _
  case incM | decM =>
    cases h
    change CpuFrame [] 0xE0 false false false s _
    exact (((CpuFrame.refl s).memWrite _ _).setF rfl).took _
  case daa =>
    cases h
    change CpuFrame [.a] 0xB0 false false false s _
    exact (((CpuFrame.refl s).setReg .a _).setF rfl).took _
  case cpl =>
    cases h
    change CpuFrame [.a] 0x60 false false false s _
    exact (((CpuFrame.refl s).setReg .a _).setF rfl).took _
  case scf | ccf =>
    cases h
    change CpuFrame [] 0x70 false false false s _
    exact ((CpuFrame.refl s).setF rfl).took _
  case addHlRr =>
    cases h
    change CpuFrame [.h, .l] 0x70 false false false s _
    exact (((CpuFrame.refl s).setHl _).setF rfl).took _
  case addSpE =>
    cases h
    change CpuFrame [] 0xF0 true false false s _
    exact (((CpuFrame.refl s).setSp _).setF rfl).took _
  -- rotates, shifts and bits
  case rlcR d | rrcR d | rlR d | rrR d | slaR d | sraR d | swapR d | srlR d =>
    cases h
    change CpuFrame [d] 0xF0 false false false s _
    exact (((CpuFrame.refl s).setReg d _).setF rfl).took _
  case rlcM | rrcM | rlM | rrM | slaM | sraM | swapM | srlM =>
    cases h
    change CpuFrame [] 0xF0 false false false s _
    exact (((CpuFrame.refl s).memWrite _ _).setF rfl).took _
  case bitR | bitM =>
    cases h
    change CpuFrame [] 0xE0 false false false s _
    exact ((CpuFrame.refl s).setF rfl).took _
  -- control
  case jpNn | jpHl | jrE =>
    cases h
    change CpuFrame [] 0x00 false false false s _
    exact ((CpuFrame.refl s).setPc _).took _
  case jpCcNn | jrCcE =>
    change CpuFrame [] 0x00 false false false s _
    obtain ⟨-, rfl⟩ | ⟨-, rfl⟩ := ite_next_cases h
    · exact ((CpuFrame.refl s).setPc _).took _
    · exact (CpuFrame.refl s).took _
  case callNn | rst =>
    cases h
    change CpuFrame [] 0x00 true false false s _
    exact (((CpuFrame.refl s).push16 _).setPc _).took _
  case callCcNn =>
    change CpuFrame [] 0x00 true false false s _
    obtain ⟨-, rfl⟩ | ⟨-, rfl⟩ := ite_next_cases h
    · exact (((CpuFrame.refl s).push16 _).setPc _).took _
    · exact (CpuFrame.refl s).took _
  case ret =>
    cases h
    change CpuFrame [] 0x00 true false false s _
    exact (((CpuFrame.refl s).setSp _).setPc _).took _
  case retCc =>
    change CpuFrame [] 0x00 true false false s _
    obtain ⟨-, rfl⟩ | ⟨-, rfl⟩ := ite_next_cases h
    · exact (((CpuFrame.refl s).setSp _).setPc _).took _
    · exact (CpuFrame.refl s).took _
  case reti =>
    cases h
    change CpuFrame [] 0x00 true true false s _
    exact ((((CpuFrame.refl s).setSp _).setPc _).setIme true false).took _
  -- system
  case nop =>
    cases h
    change CpuFrame [] 0x00 false false false s _
    exact (CpuFrame.refl s).took _
  case stop n =>
    obtain rfl := execStop_next (n := n) h
    change CpuFrame [] 0x00 false false false s _
    exact (CpuFrame.refl s).took _
  case halt =>
    change CpuFrame [] 0x00 false false true s _
    obtain ⟨-, rfl⟩ | ⟨-, rfl⟩ := ite_next_cases h
    · exact ((CpuFrame.refl s).setHalt s.cpu.halted true).took _
    · exact ((CpuFrame.refl s).setHalt true s.cpu.haltBug).took _
  case di =>
    cases h
    change CpuFrame [] 0x00 false true false s _
    exact ((CpuFrame.refl s).setIme false false).took _
  case ei =>
    change CpuFrame [] 0x00 false true false s _
    obtain ⟨-, rfl⟩ | ⟨-, rfl⟩ := ite_next_cases h
    · exact ((CpuFrame.refl s).setIme s.cpu.ime true).took _
    · exact ((CpuFrame.refl s).setIme true s.cpu.imePending).took _

/-- R25: what an answering instruction changes in the CPU, the row `PREFIX_CB` included. -/
theorem exec_cpuFrame {i : Instr} {s t : State} (h : exec i s = .next t) :
    CpuFrame (destRegs (resolved i)) (flagsWritten (resolved i)) (movesSp (resolved i)) (movesIme (resolved i))
      (movesHalt (resolved i)) s t :=
  exec_cpuFrame_of_wellFormed (resolved_wellFormed i) ((exec_resolved i s).trans h)

/-! ### The claim -/

/-- Settles O34: the frame of the instruction that `resolved` gives. -/
theorem registerFrame : Obligations.RegisterFrame := by
  unfold Obligations.RegisterFrame
  intro i s t h
  have frame := exec_cpuFrame h
  exact ⟨frame.reg, frame.flags, frame.f, frame.sp, frame.ime,
    fun hi => frame.halt (movesHalt_eq_false (resolved_ne_halt hi)), frame.fault⟩

end Sys2Proof.Machine

/-! What one step may do, from the host's events to the advances, and the invariants of the memory arrays and of F. -/

namespace Sys2Proof.Machine

/-! ### CpuStep, R314 -/

/-- Everything a `CpuStep` that goes on can be: a halted tick, a dispatch, an instruction. -/
theorem cpuStep_next_cases {s t : State} (h : cpuStep s = .next t) :
    (s.cpu.halted = true ∧ s.pending = 0 ∧ t = s.took s.params.haltTickCycles) ∨
    (s.cpu.ime = true ∧ s.pending ≠ 0 ∧ t = s.awake.takeInterrupt s.pending) ∨
    (¬(s.cpu.halted = true ∧ s.pending = 0) ∧ ¬(s.cpu.ime = true ∧ s.pending ≠ 0) ∧
      exec s.awake.enableDelayed.fetched s.awake.enableDelayed.afterFetch = .next t) := by
  unfold cpuStep at h
  split at h
  next hh => exact .inl ⟨hh.1, hh.2, (Host.Outcome.next.inj h).symm⟩
  next hh =>
    split at h
    next hi => exact .inr (.inl ⟨hi.1, hi.2, (Host.Outcome.next.inj h).symm⟩)
    next hi => exact .inr (.inr ⟨hh, hi, h⟩)

/-! ### What every step keeps of the blocks outside the CPU -/

/-- A property of the blocks outside the CPU that each of the things a step is made of keeps. -/
structure BlockInvariant (P : State → Prop) : Prop where
  cpu : ∀ s c n, P s → P { s with cpu := c, cycles := n }
  ifReg : ∀ s r, P s → P { s with ifReg := r }
  store : ∀ s a v, P s → P (s.memWrite a v)
  inputs : ∀ s l, P s → P { s with inputs := l }
  event : ∀ s e, P s → P (applyEvent s e)
  advance : ∀ s n, P s → P (s.advance n)

namespace BlockInvariant
variable {P : State → Prop} {s t : State}

theorem of_takeInterrupt (inv : BlockInvariant P) (h : P s) (p : BitVec 5) : P (s.takeInterrupt p) := by
  rw [State.takeInterrupt_eq]
  exact inv.cpu _ _ _ (inv.store _ _ _ (inv.store _ _ _ (inv.ifReg s _ h)))

theorem of_cpuStep (inv : BlockInvariant P) (h : P s) (hs : cpuStep s = .next t) : P t := by
  obtain ⟨-, -, rfl⟩ | ⟨-, -, rfl⟩ | ⟨-, -, hx⟩ := cpuStep_next_cases hs
  · exact inv.cpu s s.cpu _ h
  · exact inv.of_takeInterrupt (inv.cpu s s.awake.cpu s.cycles h) _
  · rw [State.enableDelayed_awake] at hx
    exact exec_ind P inv.cpu inv.store (inv.cpu s _ s.cycles h) hx

/-- Such a property is an invariant of the machine. -/
theorem of_step (inv : BlockInvariant P) (h : P s) (hs : step s = .next t) : P t := by
  obtain ⟨u, v, rfl, -, hv, rfl⟩ := step_next_cases s t hs
  exact inv.advance v _ (inv.of_cpuStep (State.applyInputs_ind P s inv.event (fun l => inv.inputs s l h) h) hv)

end BlockInvariant

/-! ### The memory arrays -/

/-- R511: reset takes canonical arrays from RAM_INIT and from the cartridge. -/
theorem State.MemInv.hostReset {s : State} (h : s.MemInv) (keep : Bool) : (s.hostReset keep).MemInv := by
  obtain ⟨hmem, hinit⟩ := h
  refine ⟨?_, hinit⟩
  simp only [State.memWf, Bool.and_eq_true] at hmem hinit ⊢
  obtain ⟨⟨⟨⟨⟨-, -⟩, -⟩, -⟩, hrom⟩, heram⟩ := hmem
  obtain ⟨⟨⟨⟨hv, hw⟩, ho⟩, hh⟩, he⟩ := hinit
  have hsaved : ((if keep then some s.cart.eram else none).getD s.params.ramInit.eram).wf = true := by
    cases keep
    · exact he
    · exact heram
  exact ⟨⟨⟨⟨⟨hv, hw⟩, ho⟩, hh⟩, hrom⟩, hsaved⟩

/-- R310: the five advances write no array. -/
theorem State.MemInv.advance {s : State} (h : s.MemInv) (n : Nat) : (s.advance n).MemInv := by
  obtain ⟨p, q, e⟩ := State.ppuAdvance_blocks n s
  unfold State.advance
  rw [e]
  simpa only [State.MemInv, State.memWf, State.timerAdvance, State.dmaAdvance, State.serialAdvance, State.cartAdvance,
    cartAdvance_rom, cartAdvance_eram] using h

theorem memInv_blockInvariant : BlockInvariant State.MemInv where
  cpu _ _ _ h := h
  ifReg _ _ h := h
  store s a v h := ⟨memWf_memWrite h.1 a v, by rw [State.memWrite_params]; exact h.2⟩
  inputs _ _ h := h
  event s e h := by
    cases e
    case reset keep => exact h.hostReset keep
    all_goals exact h
  advance _ n h := h.advance n

/-- Settles O55: the canonical form is kept by stores, the DMA copy among them, by host events, and by the advances. -/
theorem stepKeepsMemoryCanonical : Obligations.StepKeepsMemoryCanonical := by
  unfold Obligations.StepKeepsMemoryCanonical
  exact fun _ _ h hs => memInv_blockInvariant.of_step h hs

/-! ### The low nibble of F -/

theorem State.takeInterrupt_f (s : State) (p : BitVec 5) : (s.takeInterrupt p).cpu.f = s.cpu.f := by
  rw [State.takeInterrupt_eq]

theorem State.takeInterrupt_params (s : State) (p : BitVec 5) : (s.takeInterrupt p).params = s.params := by
  rw [State.takeInterrupt_eq]; simp

namespace State.FlagInv
variable {s t : State}

theorem of_f_eq (h : s.FlagInv) (hf : t.cpu.f = s.cpu.f) (hp : t.params = s.params) : t.FlagInv := by
  unfold FlagInv
  rw [hf, hp]
  exact h

theorem of_event (h : s.FlagInv) (e : HostEvent) : (applyEvent s e).FlagInv := by
  cases e
  case reset => exact ⟨h.2, h.2⟩
  all_goals exact h

/-- An instruction keeps F or writes one with a zero low nibble. -/
theorem of_exec {i : Instr} (h : s.FlagInv) (hx : exec i s = .next t) : t.FlagInv := by
  have hp := exec_params hx
  obtain hf | hf := (exec_cpuFrame hx).nibble
  · exact h.of_f_eq hf hp
  · exact ⟨hf, by rw [hp]; exact h.2⟩

theorem of_cpuStep (h : s.FlagInv) (hs : cpuStep s = .next t) : t.FlagInv := by
  obtain ⟨-, -, rfl⟩ | ⟨-, -, rfl⟩ | ⟨-, -, hx⟩ := cpuStep_next_cases hs
  · exact h
  · exact h.of_f_eq (takeInterrupt_f _ _) (takeInterrupt_params _ _)
  · rw [State.enableDelayed_awake] at hx
    refine FlagInv.of_exec ?_ hx
    exact h

end State.FlagInv

/-- Settles O56: F changes only by host resets and by instructions. -/
theorem stepKeepsFlagNibbleZero : Obligations.StepKeepsFlagNibbleZero := by
  unfold Obligations.StepKeepsFlagNibbleZero
  intro s t h hs
  obtain ⟨u, v, rfl, -, hv, rfl⟩ := step_next_cases s t hs
  have hu : s.applyInputs.FlagInv := State.applyInputs_ind State.FlagInv s (fun _ e he => he.of_event e) (fun _ => h) h
  exact (hu.of_cpuStep hv).of_f_eq (congrArg Cpu.f (State.advance_cpu _ v)) (State.advance_keeps _ v).2.2

/-! ### Reset -/

/-- R476: the bank-select state after a reset, by the scheme it is of. -/
theorem ResetParams.mapper_cases (rp : ResetParams) (mp : Mapper) :
    (∀ m, rp.mapper mp = .mbc1 m → m = rp.mbc1) ∧ (∀ m, rp.mapper mp = .mbc2 m → m = rp.mbc2) ∧
    (∀ m, rp.mapper mp = .mbc3 m → m.ramEnable = rp.mbc3.ramEnable ∧ m.romBank = rp.mbc3.romBank ∧
      m.ramSel = rp.mbc3.ramSel ∧ m.latchPrev = rp.mbc3.latchPrev) ∧
    (∀ m, rp.mapper mp = .mbc5 m → m = rp.mbc5) := by
  refine ⟨?_, ?_, ?_, ?_⟩ <;> intro m h
  · cases mp <;> cases h; rfl
  · cases mp <;> cases h; rfl
  · cases mp <;> cases h; exact ⟨rfl, rfl, rfl, rfl⟩
  · cases mp <;> cases h; rfl

/-- R45: what the recommended values of the PPU are and read as. -/
theorem ppuReset_table :
    ppuReset.lcdc = 0x91 ∧ statRead ppuReset = 0x86 ∧ ppuReset.scy = 0 ∧ ppuReset.scx = 0 ∧ ppuReset.ly = 0 ∧
    ppuReset.lyc = 0 ∧ ppuReset.bgp = 0xFC ∧ ppuReset.wy = 0 ∧ ppuReset.wx = 0 ∧ ppuReset.mode = .oamScan ∧
    ppuReset.line = 0 ∧ ppuReset.lineDot = 0 ∧ ppuReset.mode3Len = 172 ∧ ppuReset.windowLine = 0 ∧
    ppuReset.wyLatch = true ∧ ppuReset.statLine = false ∧ ppuReset.lycPulse = false ∧
    ppuReset.frameComplete = false ∧ ppuReset.frame = Vector.replicate 144 (Vector.replicate 160 0) ∧
    ppuReset.lineBuffer =
      Vector.replicate 160 { index := 0, sprite := false, priority := false, palette := .bgp } :=
  ⟨rfl, by decide, rfl, rfl, rfl, rfl, rfl, rfl, rfl, rfl, rfl, rfl, rfl, rfl, rfl, rfl, rfl, rfl, rfl, rfl⟩

/-- Settles O53: the reset copies RESET_*, whose recommended values are those of the tables. -/
theorem resetLeaves : Obligations.ResetLeaves := by
  unfold Obligations.ResetLeaves
  intro s keep t rp
  have blocks : t.cpu = { rp.cpu with fault := none } ∧ t.ifReg = rp.ifReg ∧ t.ie = rp.ie ∧ t.timer = rp.timer ∧
      t.dma = rp.dma ∧ t.ppu = rp.ppu ∧ t.serial = { rp.serial with device := s.serial.device } ∧
      t.joypad = rp.joypad := ⟨rfl, rfl, rfl, rfl, rfl, rfl, rfl, rfl⟩
  refine ⟨blocks, ⟨rfl, rfl, rfl, rfl, rfl, rfl, rfl, by cases keep <;> rfl⟩, fun hrp => ?_⟩
  have mapper := rp.mapper_cases s.cart.mapper
  rw [hrp] at mapper blocks
  obtain ⟨hcpu, hif, hie, htimer, hdma, hppu, hserial, hjoypad⟩ := blocks
  refine ⟨hcpu, hif, hie, htimer, hdma, ?_, ?_, ?_, ?_⟩
  · rw [hppu]; exact ppuReset_table
  · rw [hserial]; exact ⟨rfl, (by decide : scRead serialReset = 0x7E), rfl, rfl, rfl⟩
  · rw [hjoypad]; decide
  · change (∀ m, rp.mapper s.cart.mapper = _ → _) ∧ (∀ m, rp.mapper s.cart.mapper = _ → _) ∧
      (∀ m, rp.mapper s.cart.mapper = _ → _) ∧ (∀ m, rp.mapper s.cart.mapper = _ → _)
    rw [hrp]
    exact mapper

theorem ppuReset_inv : ppuReset.Inv := by unfold Ppu.Inv; decide

theorem serialReset_inv : serialReset.Inv := by unfold Serial.Inv; decide

theorem cpuReset_haltBugInv : cpuReset.HaltBugInv := nofun

theorem dmaReset_inv (n : Nat) : dmaReset.Inv n := by simp [Dma.Inv, dmaReset]

theorem recommended_bankInv : ResetParams.recommended.BankInv := by unfold ResetParams.BankInv; decide

/-- Settles O54: each block of State.reset is the recommended reset value, which stands in its parameters too. -/
theorem resetMeetsInvariants : Obligations.ResetMeetsInvariants where
  mem := ⟨memWf_reset, rfl⟩
  flags := ⟨rfl, rfl⟩
  dma := ⟨by decide, dmaReset_inv 160, dmaReset_inv 160⟩
  ppu := ⟨ppuReset_inv, ppuReset_inv⟩
  devices := ⟨trivial, serialReset_inv, recommended_bankInv, serialReset_inv⟩
  haltBug := ⟨cpuReset_haltBugInv, cpuReset_haltBugInv⟩

end Sys2Proof.Machine

/-! Reads after stores: what a store out of reach leaves, what a stored byte reads back as, which addresses show one byte,
and when VRAM and OAM are blocked. The frame of an instruction then follows from `exec_blocks`. -/

namespace Sys2Proof.Machine

/-! ### A store that does not reach a register, R71 -/

/-- The stored register's block may hold other registers; those out of reach keep their value. -/
theorem ioRead_ioWrite_of_not_reached {s : State} {r r' : IoReg}
    (h : (Owner.io r).storeReaches s.cart (.io r') = false) (v : Byte) (k : Access) (a : Word) :
    ioRead k (ioWrite s r v) a r' = ioRead k s a r' := by
  cases r
  case dma => cases h
  case sc =>
    cases r'
    case sc => cases h
    case sb => exact scWrite_sb s.serial v
    all_goals rfl
  case div =>
    obtain ⟨htma, htac⟩ := divWrite_keeps s.timer
    cases r'
    case div | tima | ifl => cases h
    case tma => exact htma
    case tac => exact congrArg (fun tac => 0xF8 ||| BitVec.setWidth 8 tac) htac
    all_goals rfl
  case lcdc =>
    obtain ⟨-, hscy, hscx, hlyc, hbgp, hobp0, hobp1, hwy, hwx⟩ := lcdcWrite_keeps v s.ppu
    cases r'
    case lcdc | stat | ly => cases h
    case scy => exact hscy
    case scx => exact hscx
    case lyc => exact hlyc
    case bgp => exact hbgp
    case obp0 => exact hobp0
    case obp1 => exact hobp1
    case wy => exact hwy
    case wx => exact hwx
    all_goals rfl
  -- Every other store writes fields that only the registers in reach show, or none.
  all_goals cases r' <;> cases h <;> rfl

/-- Of the memory arrays a register's store changes OAM alone, by DMA. -/
theorem rawRead_ioWrite_of_not_reached {s : State} {r : IoReg} {x : Word}
    (h : (Owner.io r).storeReaches s.cart (ownerOf x) = false) (v : Byte) (k : Access) :
    (ioWrite s r v).rawRead k x = s.rawRead k x := by
  unfold State.rawRead
  cases hx : ownerOf x <;> rw [hx] at h
  case io r' => exact ioRead_ioWrite_of_not_reached h v k x
  case oam =>
    cases r
    case dma => cases h
    all_goals rfl
  all_goals cases r <;> rfl

/-- A store to LCDC blocks or opens VRAM and OAM, one to DMA everything but HRAM: all of these are in its reach. -/
theorem isBlocked_ioWrite_of_not_reached {s : State} {r : IoReg} {x : Word}
    (h : (Owner.io r).storeReaches s.cart (ownerOf x) = false) (v : Byte) :
    (ioWrite s r v).isBlocked x = s.isBlocked x := by
  unfold State.isBlocked
  cases hx : ownerOf x <;> rw [hx] at h
  case vram | oam =>
    cases r
    case lcdc | dma => cases h
    all_goals rfl
  all_goals
    cases r
    case dma => cases h
    all_goals rfl

/-! ### A store that does not reach an address, R61, R81 -/

/-- Blocking is a matter of the PPU and DMA registers: no other store changes it. -/
theorem State.isBlocked_rawWrite {s : State} {a : Word} (ha : ∀ r, ownerOf a ≠ .io r) (v : Byte) (x : Word) :
    (s.rawWrite a v).isBlocked x = s.isBlocked x := by
  unfold State.rawWrite
  cases ho : ownerOf a
  case io r => exact absurd ho (ha r)
  all_goals rfl

theorem State.rawRead_rawWrite_of_not_reached {s : State} {a x : Word} (h : s.storeReaches a x = false) (v : Byte)
    (k : Access) : (s.rawWrite a v).rawRead k x = s.rawRead k x := by
  unfold State.storeReaches at h
  unfold State.rawWrite
  cases ho : ownerOf a <;> rw [ho] at h
  case io => exact rawRead_ioWrite_of_not_reached h v k
  all_goals
    unfold State.rawRead
    cases hx : ownerOf x <;> rw [hx] at h
  case rom.rom | rom.eram | ie.ie => cases h
  case vram.vram m n | wram.wram m n | oam.oam m n | hram.hram m n =>
    exact Memory.read_write_of_ne _ _ (by rintro rfl; simp [Owner.storeReaches] at h)
  case eram.rom m n => exact cartRead_cartWriteRam s.cart m n v
  case eram.eram m n =>
    exact cartReadRam_cartWriteRam_of_ne s.cart m n v (by simpa [Owner.storeReaches] using h)
  all_goals rfl

theorem State.isBlocked_rawWrite_of_not_reached {s : State} {a x : Word} (h : s.storeReaches a x = false) (v : Byte) :
    (s.rawWrite a v).isBlocked x = s.isBlocked x := by
  by_cases ha : ∃ r, ownerOf a = .io r
  · obtain ⟨r, ho⟩ := ha
    unfold State.storeReaches at h
    unfold State.rawWrite
    rw [ho] at h ⊢
    exact isBlocked_ioWrite_of_not_reached h v
  · exact State.isBlocked_rawWrite (not_exists.mp ha) v x

/-- The frame of one store. -/
theorem State.memRead_memWrite_of_not_reached {s : State} {a x : Word} (h : s.storeReaches a x = false) (v : Byte)
    (k : Access) : (s.memWrite a v).memRead k x = s.memRead k x := by
  cases hb : s.isBlocked a
  · rw [State.memWrite_open hb]
    exact State.memRead_congr k x (State.isBlocked_rawWrite_of_not_reached h v)
      (State.rawRead_rawWrite_of_not_reached h v k)
  · rw [State.memWrite_blocked hb]

/-- The frame of a list of stores. -/
theorem State.memRead_storeAll_of_outOfReach {x : Word} {s : State} {l : List (Word × Byte)}
    (h : State.outOfReach x s l = true) (k : Access) : (s.storeAll l).memRead k x = s.memRead k x := by
  induction l generalizing s with
  | nil => rfl
  | cons p rest ih =>
    obtain ⟨a, v⟩ := p
    simp only [State.outOfReach, Bool.and_eq_true, Bool.not_eq_true'] at h
    obtain ⟨hfirst, hrest⟩ := h
    calc ((s.memWrite a v).storeAll rest).memRead k x
      _ = (s.memWrite a v).memRead k x := ih hrest
      _ = s.memRead k x := State.memRead_memWrite_of_not_reached hfirst v k

/-! ### The claims about every instruction -/

/-- Settles O32: `exec_blocks` is the claim. -/
theorem onlyNamedStoresChangeBlocks : Obligations.OnlyNamedStoresChangeBlocks := by
  unfold Obligations.OnlyNamedStoresChangeBlocks
  exact fun _ _ _ h => exec_blocks h

/-- Settles O33: outside the CPU an instruction is its stores, and a read does not see the CPU. -/
theorem memoryFrame : Obligations.MemoryFrame := by
  unfold Obligations.MemoryFrame
  intro i s t h x hx k
  rw [exec_blocks h, State.memRead_cpu]
  exact State.memRead_storeAll_of_outOfReach hx k

/-! ### Addresses that show one byte, R61, R68, R444 -/

/-- Two addresses show one byte by having one owner, or by reaching one place through the external RAM window. -/
theorem State.sameByte_cases {s : State} {a x : Word} (h : s.sameByte a x = true) :
    ownerOf x = ownerOf a ∨
      ∃ m n, ownerOf a = .eram m ∧ ownerOf x = .eram n ∧ ramTarget s.cart n = ramTarget s.cart m := by
  unfold State.sameByte at h
  rw [Bool.or_eq_true] at h
  obtain h | h := h
  · exact .inl (by simpa using h)
  · split at h
    next m n ha hx => exact .inr ⟨m, n, ha, hx, by simpa using h⟩
    next => cases h

/-- Outside the window only an address of the same owner shows the byte. -/
theorem State.ownerOf_eq_of_sameByte {s : State} {a x : Word} (h : s.sameByte a x = true)
    (ha : ∀ m, ownerOf a ≠ .eram m) : ownerOf x = ownerOf a := by
  obtain h | ⟨m, -, hm, -⟩ := State.sameByte_cases h
  · exact h
  · exact absurd hm (ha m)

/-- In the window, an address that reaches the same place. -/
theorem State.eram_of_sameByte {s : State} {a x : Word} {m : Nat} (h : s.sameByte a x = true)
    (ha : ownerOf a = .eram m) : ∃ n, ownerOf x = .eram n ∧ ramTarget s.cart n = ramTarget s.cart m := by
  obtain h | ⟨m', n, hm, hx, ht⟩ := State.sameByte_cases h
  · exact ⟨m, h.trans ha, rfl⟩
  · cases ha.symm.trans hm
    exact ⟨n, hx, ht⟩

/-- Blocking does not distinguish addresses that show one byte. -/
theorem State.isBlocked_of_sameByte {s : State} {a x : Word} (h : s.sameByte a x = true) :
    s.isBlocked x = s.isBlocked a := by
  unfold State.isBlocked
  obtain h | ⟨m, n, ha, hx, -⟩ := State.sameByte_cases h
  · rw [h]
  · rw [ha, hx]

/-! ### What is stored in RAM reads back -/

theorem cartReadRam_cartWriteRam_cell {c : Cart} {m n i : Nat} (hw : c.eram.wf = true)
    (hm : ramTarget c m = .cell i) (hn : ramTarget c n = .cell i) (v : Byte) :
    cartReadRam (cartWriteRam c m v) n = v := by
  have hn' : ramTarget { c with eram := c.eram.write i v } n = .cell i := (ramTarget_congr c _ rfl rfl n).trans hn
  rw [cartWriteRam_cell hm, cartReadRam_cell hn']
  exact Memory.read_write_self hw i v

/-- R457: the bits not stored read 1. -/
theorem mbc2_stored_shown (v : Byte) : 0xF0#8 ||| (v &&& 0x0F) = byteOf (240 + v.toNat % 16) := by
  rw [mbc2Shown_spec, mbc2Stored_spec]
  simp [byteOf]

/-- R457, in the window. -/
theorem cartReadRam_cartWriteRam_nibble {c : Cart} {m n i : Nat} (hw : c.eram.wf = true)
    (hm : ramTarget c m = .nibble i) (hn : ramTarget c n = .nibble i) (v : Byte) :
    cartReadRam (cartWriteRam c m v) n = byteOf (240 + v.toNat % 16) := by
  have hn' : ramTarget { c with eram := c.eram.write i (v &&& 0x0F) } n = .nibble i :=
    (ramTarget_congr c _ rfl rfl n).trans hn
  rw [cartWriteRam_nibble hm, cartReadRam_nibble hn', Memory.read_write_self hw]
  exact mbc2_stored_shown v

theorem rawRead_rawWrite_of_isPlainRam {s : State} {a x : Word} (hw : s.memWf = true) (hs : s.sameByte a x = true)
    (ha : s.isPlainRam a = true) (v : Byte) (k : Access) : (s.rawWrite a v).rawRead k x = v := by
  simp only [State.memWf, Bool.and_eq_true] at hw
  obtain ⟨⟨⟨⟨⟨hvram, hwram⟩, hoam⟩, hhram⟩, -⟩, heram⟩ := hw
  unfold State.isPlainRam at ha
  unfold State.rawWrite State.rawRead
  cases ho : ownerOf a <;> rw [ho] at ha
  case rom | nobody | io | ie => cases ha
  case eram m =>
    obtain ⟨n, hx, ht⟩ := State.eram_of_sameByte hs ho
    rw [hx]
    cases hm : ramTarget s.cart m <;> simp only [hm] at ha
    case closed | nibble | clock => cases ha
    case cell i =>
      exact cartReadRam_cartWriteRam_cell heram hm (ht.trans hm) v
  all_goals rw [State.ownerOf_eq_of_sameByte hs (by simp [ho]), ho]
  case vram => exact Memory.read_write_self hvram _ v
  case wram => exact Memory.read_write_self hwram _ v
  case oam => exact Memory.read_write_self hoam _ v
  case hram => exact Memory.read_write_self hhram _ v

theorem rawRead_rawWrite_of_isMbc2Cell {s : State} {a x : Word} (hw : s.memWf = true) (hs : s.sameByte a x = true)
    (ha : s.isMbc2Cell a = true) (v : Byte) (k : Access) :
    (s.rawWrite a v).rawRead k x = byteOf (240 + v.toNat % 16) := by
  have heram : s.cart.eram.wf = true := (Bool.and_eq_true_iff.mp hw).2
  unfold State.isMbc2Cell at ha
  split at ha
  next m ho =>
    split at ha
    next i hm =>
      obtain ⟨n, hx, ht⟩ := State.eram_of_sameByte hs ho
      rw [State.rawWrite, ho, State.rawRead, hx]
      exact cartReadRam_cartWriteRam_nibble heram hm (ht.trans hm) v
    next => cases ha
  next => cases ha

/-- Neither kind of RAM byte is a register. -/
theorem State.not_io_of_ram {s : State} {a : Word} (h : s.isPlainRam a = true ∨ s.isMbc2Cell a = true) (r : IoReg) :
    ownerOf a ≠ .io r := by
  intro ho
  simp [State.isPlainRam, State.isMbc2Cell, ho] at h

/-- Settles O35: the address read is as open as the one stored to, and the store leaves it so. -/
theorem storedByteReadsBack : Obligations.StoredByteReadsBack := by
  unfold Obligations.StoredByteReadsBack
  intro s a v hinv hopen k x hs
  have read (ha : s.isPlainRam a = true ∨ s.isMbc2Cell a = true) :
      (s.memWrite a v).memRead k x = (s.rawWrite a v).rawRead k x := by
    rw [State.memWrite_open hopen]
    refine State.memRead_open ?_ k
    rw [State.isBlocked_rawWrite (State.not_io_of_ram ha), State.isBlocked_of_sameByte hs, hopen]
  exact ⟨fun ha => (read (.inl ha)).trans (rawRead_rawWrite_of_isPlainRam hinv.1 hs ha v k),
    fun ha => (read (.inr ha)).trans (rawRead_rawWrite_of_isMbc2Cell hinv.1 hs ha v k)⟩

/-! ### The mirror and the unowned range, R68, R70 -/

/-- A write goes by the owner of its address alone. -/
theorem State.memWrite_eq_of_ownerOf_eq (s : State) {a b : Word} (h : ownerOf a = ownerOf b) (v : Byte) :
    s.memWrite a v = s.memWrite b v := by
  unfold State.memWrite State.isBlocked State.rawWrite
  rw [h]

/-- So does a read, but in the APU window, whose free value is drawn by address (R72). -/
theorem State.memRead_eq_of_ownerOf_eq (s : State) {a b : Word} (h : ownerOf a = ownerOf b)
    (ha : ownerOf a ≠ .io .apu) (k : Access) : s.memRead k a = s.memRead k b := by
  unfold State.memRead State.isBlocked State.rawRead
  rw [h] at ha ⊢
  cases ho : ownerOf b
  case io r =>
    cases r
    case apu => exact absurd ho ha
    all_goals rfl
  all_goals rfl

/-- R70, D16: an address nobody owns reads 0xFF, blocked or not. -/
theorem State.memRead_nobody {a : Word} (h : ownerOf a = .nobody) (s : State) (k : Access) : s.memRead k a = 0xFF := by
  unfold State.memRead State.rawRead
  rw [h]
  exact ite_self _

/-- R70, D16: a write there is dropped. -/
theorem State.memWrite_nobody {a : Word} (h : ownerOf a = .nobody) (s : State) (v : Byte) : s.memWrite a v = s := by
  unfold State.memWrite State.rawWrite
  rw [h]
  exact ite_self _

/-- An address given as a number. -/
theorem toNat_ofNat_word {n : Nat} (h : n < 0x10000) : (BitVec.ofNat 16 n).toNat = n := by
  rw [BitVec.toNat_ofNat, Nat.mod_eq_of_lt h]

/-- Settles O36: E000 + k and C000 + k have one owner, FEA0 to FEFF none. -/
theorem mirrorAndUnowned : Obligations.MirrorAndUnowned := by
  unfold Obligations.MirrorAndUnowned
  intro s k
  refine ⟨fun hk => ?_, fun hk => ?_⟩
  · have hE := toNat_ofNat_word (n := 0xE000 + k) (by omega)
    have hC := toNat_ofNat_word (n := 0xC000 + k) (by omega)
    have mirror : ownerOf (BitVec.ofNat 16 (0xE000 + k)) = .wram k := by
      rw [ownerOf_mirror (by omega) (by omega), hE, Nat.add_sub_cancel_left]
    have wram : ownerOf (BitVec.ofNat 16 (0xC000 + k)) = .wram k := by
      rw [ownerOf_wram (by omega) (by omega), hC, Nat.add_sub_cancel_left]
    have same := mirror.trans wram.symm
    exact ⟨s.memRead_eq_of_ownerOf_eq same (by simp [mirror]), s.memWrite_eq_of_ownerOf_eq same⟩
  · have hF := toNat_ofNat_word (n := 0xFEA0 + k) (by omega)
    have nobody : ownerOf (BitVec.ofNat 16 (0xFEA0 + k)) = .nobody := ownerOf_nobody (by omega) (by omega)
    exact ⟨State.memRead_nobody nobody s, State.memWrite_nobody nobody s⟩

/-! ### VRAM and OAM, R76 -/

theorem ppuBlocksVram_iff (s : State) : ppuBlocksVram s = true ↔
    s.ppu.lcdc.getLsbD 7 = true ∧
      (s.ppu.mode = .transfer ∨ (s.ppu.mode = .oamScan ∧ s.params.vramBlockedMode2 = true)) := by
  simp [ppuBlocksVram, lcdOn]

theorem ppuBlocksOam_iff (s : State) : ppuBlocksOam s = true ↔
    s.ppu.lcdc.getLsbD 7 = true ∧ (s.ppu.mode = .transfer ∨ s.ppu.mode = .oamScan) := by
  simp [ppuBlocksOam, lcdOn, or_comm]

/-- Outside a transfer the PPU alone keeps the CPU from VRAM. -/
theorem State.isBlocked_vram {s : State} {a : Word} {off : Nat} (hd : s.dma.blocked = false)
    (h : ownerOf a = .vram off) : s.isBlocked a = ppuBlocksVram s := by
  simp [State.isBlocked, h, hd]

/-- And from OAM. -/
theorem State.isBlocked_oam {s : State} {a : Word} {off : Nat} (hd : s.dma.blocked = false)
    (h : ownerOf a = .oam off) : s.isBlocked a = ppuBlocksOam s := by
  simp [State.isBlocked, h, hd]

/-- A read and a write of an address that is blocked under a condition. -/
theorem State.access_of_isBlocked_iff {s : State} {a : Word} {c : Prop} [Decidable c] {read : Byte}
    {written : Byte → State} (hb : s.isBlocked a = true ↔ c) (hr : ∀ k, s.rawRead k a = read)
    (hw : ∀ v, s.rawWrite a v = written v) :
    if c then (∀ k, s.memRead k a = 0xFF) ∧ ∀ v, s.memWrite a v = s
    else (∀ k, s.memRead k a = read) ∧ ∀ v, s.memWrite a v = written v := by
  split
  next hc => exact ⟨State.memRead_blocked (hb.mpr hc), State.memWrite_blocked (hb.mpr hc)⟩
  next hc =>
    have ho : s.isBlocked a = false := Bool.eq_false_iff.mpr (mt hb.mp hc)
    exact ⟨fun k => (State.memRead_open ho k).trans (hr k), fun v => (State.memWrite_open ho v).trans (hw v)⟩

/-- Settles O38: outside a transfer the PPU alone blocks the two arrays, by R76's conditions. -/
theorem ppuModeBlocking : Obligations.PpuModeBlocking := by
  unfold Obligations.PpuModeBlocking
  intro s a hd
  refine ⟨fun h1 h2 => ?_, fun h1 h2 => ?_⟩
  · have ho := ownerOf_vram h1 (by omega)
    refine State.access_of_isBlocked_iff ?_ (fun k => by rw [State.rawRead, ho]) (fun v => by rw [State.rawWrite, ho])
    rw [State.isBlocked_vram hd ho, ppuBlocksVram_iff]
  · have ho := ownerOf_oam h1 (by omega)
    refine State.access_of_isBlocked_iff ?_ (fun k => by rw [State.rawRead, ho]) (fun v => by rw [State.rawWrite, ho])
    rw [State.isBlocked_oam hd ho, ppuBlocksOam_iff]

end Sys2Proof.Machine

/-! The codec of 30_encoding.md: decoding what the encoder writes, encoding what the decoder reads, and the row `PREFIX_CB`. -/

namespace Sys2Proof.Machine

/-! ### From the instruction to its bytes and back, R113 -/

theorem decodeBytes_withCb {op2 : Byte} {i : Instr} (h : decodeCb op2 = i) (rest : List Byte) :
    decodeBytes (withCb op2 ++ rest) = .ok (i, rest) := by
  rw [← h]
  exact decodeBytes_cb op2 rest

/-- Format OP_NN (R103): the decoder joins the two halves of the word again. -/
theorem decodeBytes_withWord {op : Byte} {i : Word → Instr} (hl : opcodeLength op = 3)
    (hd : ∀ lo hi, decode op lo hi = i (joinBytes hi lo)) (nn : Word) (rest : List Byte) :
    decodeBytes (withWord op nn ++ rest) = .ok (i nn, rest) :=
  calc decodeBytes (withWord op nn ++ rest)
    _ = .ok (decode op (loByte nn) (hiByte nn), rest) := decodeBytes_3 op _ _ rest hl
    _ = .ok (i nn, rest) := by rw [hd, joinBytes_hi_lo]

/-- Format OP (R101): the bytes after the opcode are not looked at. -/
theorem decodeBytes_1 {op : Byte} {i : Instr} (hl : opcodeLength op = 1) (hd : ∀ b c, decode op b c = i)
    (rest : List Byte) : decodeBytes (op :: rest) = .ok (i, rest) := by
  simp [decodeBytes, hl, hd]

theorem decodeBytes_encode {i : Instr} (hi : i.wellFormed = true) (rest : List Byte) :
    decodeBytes (encode i ++ rest) = .ok (i, rest) := by
  cases i
  case prefixCb => cases hi
  -- A word follows the opcode.
  case ldANn nn | ldNnA nn | ldNnSp nn | jpNn nn | callNn nn =>
    exact decodeBytes_withWord rfl (fun _ _ => rfl) nn rest
  case ldRrNn p nn => cases p <;> exact decodeBytes_withWord rfl (fun _ _ => rfl) nn rest
  case jpCcNn cc nn | callCcNn cc nn => cases cc <;> exact decodeBytes_withWord rfl (fun _ _ => rfl) nn rest
  -- A bit number or a restart number lies in the opcode.
  case bitR b r => exact decodeBytes_withCb (decodeCb_bitR b r) rest
  case resR b r => exact decodeBytes_withCb (decodeCb_resR b r) rest
  case setR b r => exact decodeBytes_withCb (decodeCb_setR b r) rest
  case bitM b => exact decodeBytes_withCb (decodeCb_bitM b) rest
  case resM b => exact decodeBytes_withCb (decodeCb_resM b) rest
  case setM b => exact decodeBytes_withCb (decodeCb_setM b) rest
  case rst t => exact decodeBytes_1 (decode_rst t 0 0).2 (fun b c => (decode_rst t b c).1) rest
  -- Registers, pairs and conditions lie in the opcode: with each the opcode is a literal.
  case ldRR r r' => cases r <;> cases r' <;> rfl
  case ldRN r _ | ldRM r | ldMR r | addR r | adcR r | subR r | sbcR r | andR r | xorR r | orR r | cpR r | incR r | decR r =>
    cases r <;> rfl
  case rlcR r | rrcR r | rlR r | rrR r | slaR r | sraR r | swapR r | srlR r =>
    cases r <;> exact decodeBytes_withCb rfl rest
  case addHlRr p | incRr p | decRr p => cases p <;> rfl
  case push q | pop q => cases q <;> rfl
  case jrCcE cc _ | retCc cc => cases cc <;> rfl
  -- The rest have no field in the opcode, and at most a byte after it.
  case rlcM | rrcM | rlM | rrM | slaM | sraM | swapM | srlM => exact decodeBytes_withCb rfl rest
  all_goals rfl

/-- Settles O2: `decodeBytes_encode` is the claim. -/
theorem decodeOfEncode : Obligations.DecodeOfEncode := by
  unfold Obligations.DecodeOfEncode
  exact fun _ rest hi => decodeBytes_encode hi rest

theorem reads_of_encode {bytes : List Byte} {i : Instr} (h : encode i = bytes) (hi : i.wellFormed = true) :
    Reads bytes i := by
  subst h
  simpa [Reads] using decodeBytes_encode hi []

/-- Settles O1: each sample is what the encoder writes. -/
theorem decodeSamples : Obligations.DecodeSamples := by
  unfold Obligations.DecodeSamples
  refine ⟨?_, ?_, ?_, ?_, ?_, ?_, ?_, ?_, ?_, ?_, ?_, ?_, ?_⟩ <;> exact reads_of_encode rfl rfl

/-! ### From the bytes to the instruction and back, R113, R116 -/

/-- The opcode with the fields x, y and z of R105. -/
def opcodeOf (x y z : Nat) : Byte := BitVec.ofNat 8 (64 * x + 8 * y + z)

theorem opcodeOf_fields (op : Byte) : opcodeOf (fieldX op) (fieldY op) (fieldZ op) = op := by
  have key : 64 * fieldX op + 8 * fieldY op + fieldZ op = op.toNat := by
    unfold fieldX fieldY fieldZ
    omega
  rw [opcodeOf, key, BitVec.ofNat_toNat, BitVec.setWidth_eq]

theorem fieldY_lt (op : Byte) : fieldY op < 8 := Nat.mod_lt _ (by decide)

theorem fieldZ_lt (op : Byte) : fieldZ op < 8 := Nat.mod_lt _ (by decide)

theorem fieldX_cases (op : Byte) : fieldX op = 0 ∨ fieldX op = 1 ∨ fieldX op = 2 ∨ fieldX op = 3 := by
  have := op.isLt
  unfold fieldX
  omega

/-- What the decoder reads of `op` and the two bytes of `nn` (low byte first) is an instruction and encodes to its bytes.
With the two bytes taken as the halves of one word, the encodings of all three lengths are prefixes of one list. -/
def ReadsBack (op : Byte) (nn : Word) (i : Instr) : Prop :=
  i.wellFormed = true ∧ encode i = [op, loByte nn, hiByte nn].take (opcodeLength op)

/-- The extended set (R111), every second byte. -/
theorem encode_decodeCb : ∀ op2 : Byte, encode (decodeCb op2) = [0xCB, op2] := by decide +kernel

theorem decodeCb_readsBack (nn : Word) : ReadsBack 0xCB nn (decodeCb (loByte nn)) :=
  ⟨(decodeCb_wellFormed_ne_halt _).1, encode_decodeCb _⟩

/-- Rows 0x to 3x of R110, for each opcode with its operand bytes left variable. -/
theorem decodeX0_readsBack {y z : Nat} (hy : y < 8) (hz : z < 8) (nn : Word) :
    ReadsBack (opcodeOf 0 y z) nn (decodeX0 (opcodeOf 0 y z) (loByte nn) nn) := by
  interval_cases z <;> interval_cases y <;> exact ⟨rfl, rfl⟩

/-- The column of rows Cx to Fx that holds 0xCB (R104), at y = 1. -/
theorem decodeX3_readsBack_column3 {y : Nat} (hy : y < 8) (nn : Word) :
    ReadsBack (opcodeOf 3 y 3) nn (decodeX3 (opcodeOf 3 y 3) (loByte nn) nn) := by
  obtain rfl | rfl | h : y = 0 ∨ y = 1 ∨ 1 < y := by omega
  · exact ⟨rfl, rfl⟩
  · exact decodeCb_readsBack nn
  · interval_cases y <;> exact ⟨rfl, rfl⟩

/-- Rows Cx to Fx of R110: the other columns as in rows 0x to 3x. -/
theorem decodeX3_readsBack {y z : Nat} (hy : y < 8) (hz : z < 8) (nn : Word) :
    ReadsBack (opcodeOf 3 y z) nn (decodeX3 (opcodeOf 3 y z) (loByte nn) nn) := by
  obtain h | rfl | h : z < 3 ∨ z = 3 ∨ 3 < z := by omega
  · interval_cases z <;> interval_cases y <;> exact ⟨rfl, rfl⟩
  · exact decodeX3_readsBack_column3 hy nn
  · interval_cases z <;> interval_cases y <;> exact ⟨rfl, rfl⟩

/-- Rows 4x to 7x of R110 have no operand bytes. -/
theorem decodeX1_oneByte : ∀ op : Byte, fieldX op = 1 →
    opcodeLength op = 1 ∧ (decodeX1 op).wellFormed = true ∧ encode (decodeX1 op) = [op] := by decide +kernel

/-- Nor have rows 8x to Bx. -/
theorem decodeX2_oneByte : ∀ op : Byte, fieldX op = 2 →
    opcodeLength op = 1 ∧ (decodeX2 op).wellFormed = true ∧ encode (decodeX2 op) = [op] := by decide +kernel

theorem readsBack_of_oneByte {op : Byte} {i : Instr}
    (h : opcodeLength op = 1 ∧ i.wellFormed = true ∧ encode i = [op]) (nn : Word) : ReadsBack op nn i := by
  obtain ⟨hl, hi, he⟩ := h
  exact ⟨hi, by rw [he, hl]; rfl⟩

theorem decode_readsBack (op : Byte) (nn : Word) : ReadsBack op nn (decode op (loByte nn) (hiByte nn)) := by
  have hop := opcodeOf_fields op
  unfold decode
  rw [joinBytes_hi_lo]
  obtain h | h | h | h := fieldX_cases op
  · rw [h] at hop ⊢
    rw [← hop]
    exact decodeX0_readsBack (fieldY_lt op) (fieldZ_lt op) nn
  · rw [h]
    exact readsBack_of_oneByte (decodeX1_oneByte op h) nn
  · rw [h]
    exact readsBack_of_oneByte (decodeX2_oneByte op h) nn
  · rw [h] at hop ⊢
    rw [← hop]
    exact decodeX3_readsBack (fieldY_lt op) (fieldZ_lt op) nn

/-- Settles O3: any two bytes after the opcode are the halves of a word. -/
theorem encodeOfDecode : Obligations.EncodeOfDecode := by
  unfold Obligations.EncodeOfDecode
  intro b0 b1 b2
  simpa only [ReadsBack, loByte_joinBytes, hiByte_joinBytes] using decode_readsBack b0 (joinBytes b2 b1)

/-! ### The row `PREFIX_CB` completes, R104, R111 -/

theorem onOperand_completes {r : Reg8 → State → Result} {m : State → Result} {s : State}
    (hr : ∀ x, ∃ t, r x s = .next t) (hm : ∃ t, m s = .next t) (code : Nat) : ∃ t, onOperand code r m s = .next t := by
  unfold onOperand
  cases reg8Of code with
  | none => exact hm
  | some x => exact hr x

/-- Each row of the extended set answers a next state in both operand forms. -/
theorem execPrefixCb_completes (op2 : Byte) (s : State) : ∃ t, execPrefixCb op2 s = .next t := by
  unfold execPrefixCb
  generalize fieldX op2 = x, fieldY op2 = y
  match x with
  | 0 =>
    match y with
    | 0 | 1 | 2 | 3 | 4 | 5 | 6 | _ + 7 => exact onOperand_completes (fun _ => by exact ⟨_, rfl⟩) (by exact ⟨_, rfl⟩) _
  | 1 | 2 | _ + 3 => exact onOperand_completes (fun _ => by exact ⟨_, rfl⟩) (by exact ⟨_, rfl⟩) _

/-- Settles O27: `exec_prefixCb`, and every row it can select completes. -/
theorem extendedSetByPrefix : Obligations.ExtendedSetByPrefix := by
  unfold Obligations.ExtendedSetByPrefix
  exact fun op2 s => ⟨exec_prefixCb op2 s, execPrefixCb_completes op2 s⟩

end Sys2Proof.Machine

/-! The 8-bit loads of 40_load8.md. Each clause is the encoding, from `encode`, and the next state, from the law of the one
shared update the rule names: a register written, a byte stored, HL moved. -/

namespace Sys2Proof.Machine

/-! ### Encodings, R101 to R103, R106 -/

/-- Format OP_NN (R103), with the two halves of the word in the integers. -/
theorem reads_of_encode_withWord {op : Byte} {nn : Word} {i : Instr} (h : encode i = withWord op nn)
    (hi : i.wellFormed = true) : Reads [op, byteOf nn.toNat, byteOf (nn.toNat / 256)] i := by
  rw [byteOf_toNat, byteOf_toNat_div]
  exact reads_of_encode h hi

theorem encode_ldRR (dst r : Reg8) : encode (.ldRR dst r) = [byteOf (0x40 + 8 * regNum dst + regNum r)] := by
  cases dst <;> cases r <;> rfl

theorem encode_ldRN (dst : Reg8) (n : Byte) : encode (.ldRN dst n) = [byteOf (0x06 + 8 * regNum dst), n] := by
  cases dst <;> rfl

theorem encode_ldRM (dst : Reg8) : encode (.ldRM dst) = [byteOf (0x46 + 8 * regNum dst)] := by cases dst <;> rfl

theorem encode_ldMR (r : Reg8) : encode (.ldMR r) = [byteOf (0x70 + regNum r)] := by cases r <;> rfl

/-! ### Next states -/

/-- A load: the meaning is one register written. -/
theorem exec_setTo {i : Instr} {s : State} {dst : Reg8} {v : Byte} {n : Nat}
    (h : exec i s = .next ((s.setReg dst v).took n)) : ∃ t, exec i s = .next t ∧ s.SetTo t dst v s.cpu.f n :=
  ⟨_, h, s.setReg_SetTo dst v n⟩

/-- A store: the meaning is one byte written to memory. -/
theorem exec_memWrite {i : Instr} {s : State} {a : Word} {v : Byte} {n : Nat}
    (h : exec i s = .next ((s.memWrite a v).took n)) :
    exec i s = .next { s.memWrite a v with cpu := s.cpu, cycles := n } := by
  rw [h, State.memWrite_took]

theorem State.loadA_setHl_took (s : State) (a v : Word) (n : Nat) :
    ((s.loadA a).setHl v).took n =
      { s with
        cpu := { s.cpu with a := s.memRead .dataLo a, h := byteOf (v.toNat / 256), l := byteOf v.toNat }, cycles := n } := by
  rw [byteOf_toNat, byteOf_toNat_div]
  rfl

theorem State.storeA_setHl_took (s : State) (a v : Word) (n : Nat) :
    ((s.storeA a).setHl v).took n =
      { s.memWrite a s.cpu.a with
        cpu := { s.cpu with h := byteOf (v.toNat / 256), l := byteOf v.toNat }, cycles := n } := by
  rw [byteOf_toNat, byteOf_toNat_div]
  simp only [State.storeA, State.setHl, State.took, State.memWrite_cpu]

/-! ### The obligations -/

/-- Settles O11: both rules write one register, whose code lies in the opcode. -/
theorem loadRegister : Obligations.LoadRegister := by
  unfold Obligations.LoadRegister
  exact ⟨fun dst r _ => ⟨reads_of_encode (encode_ldRR dst r) rfl, exec_setTo rfl⟩,
    fun dst n _ => ⟨reads_of_encode (encode_ldRN dst n) rfl, exec_setTo rfl⟩⟩

/-- Settles O12: each rule writes one register with the byte read. `ofNat_highPage` gives the address of the LDH forms. -/
theorem loadFromMemory : Obligations.LoadFromMemory := by
  unfold Obligations.LoadFromMemory
  intro s
  simp only [ofNat_highPage]
  exact ⟨
    fun dst => ⟨reads_of_encode (encode_ldRM dst) rfl, exec_setTo rfl⟩,
    ⟨reads_of_encode rfl rfl, exec_setTo rfl⟩,
    ⟨reads_of_encode rfl rfl, exec_setTo rfl⟩,
    fun _ => ⟨reads_of_encode_withWord rfl rfl, exec_setTo rfl⟩,
    ⟨reads_of_encode rfl rfl, exec_setTo rfl⟩,
    fun _ => ⟨reads_of_encode rfl rfl, exec_setTo rfl⟩⟩

/-- Settles O13: each rule is one `memWrite`, which keeps the CPU. -/
theorem storeToMemory : Obligations.StoreToMemory := by
  unfold Obligations.StoreToMemory
  intro s
  simp only [ofNat_highPage]
  exact ⟨
    fun r => ⟨reads_of_encode (encode_ldMR r) rfl, exec_memWrite rfl⟩,
    fun _ => ⟨reads_of_encode rfl rfl, exec_memWrite rfl⟩,
    ⟨reads_of_encode rfl rfl, exec_memWrite rfl⟩,
    ⟨reads_of_encode rfl rfl, exec_memWrite rfl⟩,
    fun _ => ⟨reads_of_encode_withWord rfl rfl, exec_memWrite rfl⟩,
    ⟨reads_of_encode rfl rfl, exec_memWrite rfl⟩,
    fun _ => ⟨reads_of_encode rfl rfl, exec_memWrite rfl⟩⟩

/-- Settles O14: each rule is the access at the old HL, then HL set to `HL + 1` or `HL - 1` modulo 65536; `memWrite` keeps
the CPU whether or not it stores, so HL moves either way. -/
theorem loadStoreMovingHl : Obligations.LoadStoreMovingHl := by
  unfold Obligations.LoadStoreMovingHl
  intro s
  simp only [ofNat_toNat_succ, ofNat_toNat_pred, ← State.loadA_setHl_took, ← State.storeA_setHl_took]
  exact ⟨
    ⟨reads_of_encode rfl rfl, rfl⟩,
    ⟨reads_of_encode rfl rfl, rfl⟩,
    ⟨reads_of_encode rfl rfl, rfl⟩,
    ⟨reads_of_encode rfl rfl, rfl⟩⟩

end Sys2Proof.Machine

/-! The 16-bit loads and the stack of 41_load16.md: a pair written, a word stored, and `Push16` and `Pop16` of R10. -/

namespace Sys2Proof.Machine

/-! ### Encodings, R107 -/

theorem encode_ldRrNn (p : Pair) (nn : Word) : encode (.ldRrNn p nn) = withWord (byteOf (0x01 + 16 * pairNum p)) nn := by
  cases p <;> rfl

theorem encode_push (q : StackPair) : encode (.push q) = [byteOf (0xC5 + 16 * stackPairNum q)] := by cases q <;> rfl

theorem encode_pop (q : StackPair) : encode (.pop q) = [byteOf (0xC1 + 16 * stackPairNum q)] := by cases q <;> rfl

/-! ### Next states -/

/-- R161. -/
theorem State.storeWord_took (s : State) (a v : Word) (n : Nat) :
    (s.storeWord a v).took n =
      { (s.memWrite a (byteOf v.toNat)).memWrite (a + 1) (byteOf (v.toNat / 256)) with cpu := s.cpu, cycles := n } := by
  rw [byteOf_toNat, byteOf_toNat_div, State.storeWord, State.memWrite_took, State.memWrite_cpu]

/-- R163, R223: the flags of `SP + e`, from the low bytes taken unsigned. -/
theorem aluAddSp_f (sp : Word) (e : Byte) :
    (aluAddSp sp e).2 = flagsByte false false (sp.toNat % 16 + e.toNat % 16 > 15) (sp.toNat % 256 + e.toNat > 255) :=
  mkF_eq_flagsByte _ _ _ _

theorem State.setHl_setF_took (s : State) (v : Word) (f : Byte) (n : Nat) :
    ((s.setHl v).setF f).took n =
      { s with cpu := { s.cpu with h := byteOf (v.toNat / 256), l := byteOf v.toNat, f := f }, cycles := n } := by
  rw [byteOf_toNat, byteOf_toNat_div]
  rfl

/-- `Pop16` takes the high byte of its value from SP + 1. -/
theorem State.hiByte_popValue (s : State) : hiByte s.popValue = s.memRead .dataHi (s.cpu.sp + 1) := hiByte_joinBytes _ _

/-- `Pop16` takes the low byte of its value from SP. -/
theorem State.loByte_popValue (s : State) : loByte s.popValue = s.memRead .dataLo s.cpu.sp := loByte_joinBytes _ _

/-! ### The obligations -/

/-- Settles O15: the pair's code lies in the opcode and `setPair` writes it. SP + e, with the signed e, is `sext16` of e
added modulo 65536. -/
theorem loadPair : Obligations.LoadPair := by
  unfold Obligations.LoadPair
  intro s
  rw [ofNat_hl]
  simp only [ofInt_add_sext16, ← aluAddSp_f, ← State.setHl_setF_took]
  exact ⟨
    fun p nn => ⟨reads_of_encode_withWord (encode_ldRrNn p nn) rfl, _, rfl, s.setPair_SetTo p nn 12⟩,
    ⟨reads_of_encode rfl rfl, rfl⟩,
    fun _ => ⟨reads_of_encode rfl rfl, rfl⟩⟩

/-- Settles O16: the rule is `storeWord`, which keeps the CPU. -/
theorem storeStackPointer : Obligations.StoreStackPointer := by
  unfold Obligations.StoreStackPointer
  intro nn s
  rw [← State.storeWord_took]
  exact ⟨reads_of_encode_withWord rfl rfl, rfl⟩

/-- Settles O17: PUSH is `push16_took`. POP writes the two halves of `popValue` to its pair; into F, for AF, the low half
through `maskF`. -/
theorem pushAndPop : Obligations.PushAndPop := by
  unfold Obligations.PushAndPop
  intro s
  simp only [← State.push16_took, maskF_spec, ← State.hiByte_popValue, ← State.loByte_popValue]
  exact ⟨
    fun q => ⟨reads_of_encode (encode_push q) rfl, rfl⟩,
    fun q => reads_of_encode (encode_pop q) rfl,
    rfl, rfl, rfl, rfl⟩

end Sys2Proof.Machine

/-! The 8-bit arithmetic and logic of 42_alu8.md. Each clause is the encoding, from `encode`, and the next state, from the law
of the one shared update the rule names, with the result and the flags of `Laws/Flags` put in the integers. -/

namespace Sys2Proof.Machine

/-! ### Next states: a result byte and the new F -/

/-- An operation on the accumulator: the meaning is A and F written. -/
theorem exec_setAFlags {i : Instr} {s : State} {o : Alu} {v f : Byte} {n : Nat}
    (h : exec i s = .next ((s.setAFlags o).took n)) (hv : o.val = v) (hf : o.f = f) :
    ∃ t, exec i s = .next t ∧ s.SetTo t .a v f n :=
  ⟨_, h, hv ▸ hf ▸ s.setAFlags_SetTo o n⟩

/-- An operation on a register: the meaning is that register and F written. -/
theorem exec_setRegAlu {i : Instr} {s : State} {dst : Reg8} {o : Alu} {v f : Byte} {n : Nat}
    (h : exec i s = .next ((s.setRegAlu dst o).took n)) (hv : o.val = v) (hf : o.f = f) :
    ∃ t, exec i s = .next t ∧ s.SetTo t dst v f n :=
  ⟨_, h, hv ▸ hf ▸ s.setRegAlu_SetTo dst o n⟩

/-- An operation on the byte at HL: the meaning is one store there and F written. -/
theorem exec_writeMAlu {i : Instr} {s : State} {o : Alu} {v f : Byte} {n : Nat}
    (h : exec i s = .next ((s.writeMAlu o).took n)) (hv : o.val = v) (hf : o.f = f) :
    exec i s = .next { s.memWrite s.hl v with cpu := { s.cpu with f := f }, cycles := n } := by
  rw [h, State.writeMAlu_took, hv, hf]

/-! ### The three forms of an accumulator operation, R180 -/

/-- R180: `iR`, `iM` and `iN`, at row `k` of the opcode block 80 to BF and of its immediate column, all run `op` on A, x and
the carry. The fields hold by computation for every operation of the rule. -/
structure AccForms (k : Nat) (iR : Reg8 → Instr) (iM : Instr) (iN : Byte → Instr) (op : Byte → Byte → Bool → Alu) :
    Prop where
  row_lt : k < 8 := by decide
  encodeR : ∀ r, encode (iR r) = [byteOf (0x80 + 8 * k) ||| reg8Code r] := by intros; rfl
  encodeM : encode iM = [byteOf (0x86 + 8 * k)] := by rfl
  encodeN : ∀ n, encode (iN n) = [byteOf (0xC6 + 8 * k), n] := by intros; rfl
  wfR : ∀ r, (iR r).wellFormed = true := by intros; rfl
  wfM : iM.wellFormed = true := by rfl
  wfN : ∀ n, (iN n).wellFormed = true := by intros; rfl
  execR : ∀ r s, exec (iR r) s = .next ((s.setAFlags (op s.cpu.a (s.reg r) (flagC s.cpu.f))).took 4) := by intros; rfl
  execM : ∀ s, exec iM s = .next ((s.setAFlags (op s.cpu.a s.readM (flagC s.cpu.f))).took 8) := by intros; rfl
  execN : ∀ n s, exec (iN n) s = .next ((s.setAFlags (op s.cpu.a n (flagC s.cpu.f))).took 8) := by intros; rfl

/-- The register field takes the three low bits, which a row of the block leaves 0 (R105, R106). -/
theorem byteOf_row_or_reg8Code (r : Reg8) :
    ∀ k < 8, byteOf (0x80 + 8 * k) ||| reg8Code r = byteOf (0x80 + 8 * k + regNum r) := by
  cases r <;> decide

/-- What is left of an accumulator operation is its result and flags in the integers. -/
theorem AccForms.accOp {k : Nat} {iR : Reg8 → Instr} {iM : Instr} {iN : Byte → Instr} {op : Byte → Byte → Bool → Alu}
    {val flags : Nat → Nat → Nat → Byte} (h : AccForms k iR iM iN op)
    (hv : ∀ a x c, (op a x c).val = val a.toNat x.toNat (bit c))
    (hf : ∀ a x c, (op a x c).f = flags a.toNat x.toNat (bit c)) : AccOp k iR iM iN val flags := by
  intro s
  refine ⟨fun r => ⟨?_, ?_⟩, ⟨?_, ?_⟩, fun n => ⟨?_, ?_⟩⟩
  · rw [← byteOf_row_or_reg8Code r k h.row_lt]
    exact reads_of_encode (h.encodeR r) (h.wfR r)
  · exact exec_setAFlags (h.execR r s) (hv _ _ _) (hf _ _ _)
  · exact reads_of_encode h.encodeM h.wfM
  · exact exec_setAFlags (h.execM s) (hv _ _ _) (hf _ _ _)
  · exact reads_of_encode (h.encodeN n) (h.wfN n)
  · exact exec_setAFlags (h.execN n s) (hv _ _ _) (hf _ _ _)

/-- Settles O18: ADD and SUB are ADC and SBC of carry 0. -/
theorem addAndSubtract : Obligations.AddAndSubtract := by
  unfold Obligations.AddAndSubtract
  have addForms : AccForms 0 .addR .addM .addN (fun a x _ => aluAdc a x false) := {}
  have adcForms : AccForms 1 .adcR .adcM .adcN aluAdc := {}
  have subForms : AccForms 2 .subR .subM .subN (fun a x _ => aluSbc a x false) := {}
  have sbcForms : AccForms 3 .sbcR .sbcM .sbcN aluSbc := {}
  exact ⟨
    addForms.accOp (fun a x _ => aluAdc_val a x false) (fun a x _ => aluAdc_f a x false),
    adcForms.accOp aluAdc_val aluAdc_f,
    subForms.accOp (fun a x _ => aluSbc_val a x false) (fun a x _ => aluSbc_f a x false),
    sbcForms.accOp aluSbc_val aluSbc_f⟩

/-! ### Logic and comparison, R185 to R188 -/

/-- The flags of R185 to R187: the result byte is 0 exactly when its number is. -/
theorem logicFlags_of_toNat_eq {v : Byte} {m : Nat} (e : v.toNat = m) (h : Bool) :
    mkF (v == 0) false h false = flagsByte (m == 0) false h false := by
  rw [mkF_eq_flagsByte, byte_beq_zero, e]

theorem eq_byteOf_of_toNat_eq {v : Byte} {m : Nat} (e : v.toNat = m) : v = byteOf m := by
  rw [← e, byteOf, BitVec.ofNat_toNat, BitVec.setWidth_eq]

/-- R188: SUB without its result. -/
def aluCp (a x : Byte) : Alu := { aluSbc a x false with val := a }

theorem sub_mod_eq_zero_iff (a x : Byte) : ((a.toNat + 256 - x.toNat) % 256 == 0) = (a.toNat == x.toNat) := by
  rw [Bool.eq_iff_iff, beq_iff_eq, beq_iff_eq]
  omega

theorem aluCp_f (a x : Byte) :
    (aluCp a x).f = flagsByte (a.toNat == x.toNat) true (a.toNat % 16 < x.toNat % 16) (a.toNat < x.toNat) := by
  rw [← sub_mod_eq_zero_iff]
  exact aluSbc_f a x false

/-- Settles O19: the result of AND, XOR and OR is the operation on the numbers, and Z says whether it is 0; CP is
`aluCp`. -/
theorem logicAndCompare : Obligations.LogicAndCompare := by
  unfold Obligations.LogicAndCompare
  have andForms : AccForms 4 .andR .andM .andN (fun a x _ => aluAnd a x) := {}
  have xorForms : AccForms 5 .xorR .xorM .xorN (fun a x _ => aluXor a x) := {}
  have orForms : AccForms 6 .orR .orM .orN (fun a x _ => aluOr a x) := {}
  have cpForms : AccForms 7 .cpR .cpM .cpN (fun a x _ => aluCp a x) := {}
  exact ⟨
    andForms.accOp (fun a x _ => eq_byteOf_of_toNat_eq (BitVec.toNat_and a x))
      (fun a x _ => logicFlags_of_toNat_eq (BitVec.toNat_and a x) true),
    xorForms.accOp (fun a x _ => eq_byteOf_of_toNat_eq (BitVec.toNat_xor a x))
      (fun a x _ => logicFlags_of_toNat_eq (BitVec.toNat_xor a x) false),
    orForms.accOp (fun a x _ => eq_byteOf_of_toNat_eq (BitVec.toNat_or a x))
      (fun a x _ => logicFlags_of_toNat_eq (BitVec.toNat_or a x) false),
    cpForms.accOp (fun _ _ _ => eq_byteOf_of_toNat_eq rfl) (fun a x _ => aluCp_f a x)⟩

/-! ### INC and DEC, R189 to R192 -/

theorem encode_incR (dst : Reg8) : encode (.incR dst) = [byteOf (0x04 + 8 * regNum dst)] := by cases dst <;> rfl

theorem encode_decR (dst : Reg8) : encode (.decR dst) = [byteOf (0x05 + 8 * regNum dst)] := by cases dst <;> rfl

/-- Settles O20: the register forms write `aluInc` or `aluDec` of the register to it, the memory forms of the byte at HL to
the same address. -/
theorem incrementAndDecrement : Obligations.IncrementAndDecrement := by
  unfold Obligations.IncrementAndDecrement
  exact fun s => ⟨
    fun dst => ⟨reads_of_encode (encode_incR dst) rfl, exec_setRegAlu rfl (aluInc_val _ _) (aluInc_f _ _)⟩,
    ⟨reads_of_encode rfl rfl, exec_writeMAlu rfl (aluInc_val _ _) (aluInc_f _ _)⟩,
    fun dst => ⟨reads_of_encode (encode_decR dst) rfl, exec_setRegAlu rfl (aluDec_val _ _) (aluDec_f _ _)⟩,
    ⟨reads_of_encode rfl rfl, exec_writeMAlu rfl (aluDec_val _ _) (aluDec_f _ _)⟩⟩

/-! ### DAA, R193 -/

/-- The low digit's adjustment, from the old A and the old flags. -/
def daaLow (a f : Byte) : Nat := if flagH f || (!flagN f && decide (a.toNat % 16 > 9)) then 6 else 0

/-- The high digit's adjustment, from the old A and the old flags. -/
def daaHigh (a f : Byte) : Nat := if flagC f || (!flagN f && decide (a.toNat > 0x99)) then 0x60 else 0

/-- A adjusted once, before it is taken modulo 256. -/
def daaResult (a f : Byte) : Nat :=
  if flagN f then a.toNat + 256 - (daaLow a f + daaHigh a f) else a.toNat + (daaLow a f + daaHigh a f)

theorem daaLow_le (a f : Byte) : daaLow a f ≤ 6 := by unfold daaLow; split <;> omega

theorem daaHigh_le (a f : Byte) : daaHigh a f ≤ 0x60 := by unfold daaHigh; split <;> omega

/-- The two adjustments have no bit in common, so the rule's `|` is their sum. -/
theorem daaDigits_or : ∀ low high : Bool,
    (if low then 0x06#8 else 0) ||| (if high then 0x60#8 else 0) =
      byteOf ((if low then 6 else 0) + (if high then 0x60 else 0)) := by decide

theorem daaHigh_beq (a f : Byte) : (daaHigh a f == 0x60) = (flagC f || (!flagN f && decide (a.toNat > 0x99))) := by
  unfold daaHigh
  cases flagC f || (!flagN f && decide (a.toNat > 0x99)) <;> rfl

theorem daaAdjust_eq (a f : Byte) : daaAdjust a f = (byteOf (daaLow a f + daaHigh a f), daaHigh a f == 0x60) := by
  rw [daaHigh_beq, daaLow, daaHigh, daaAdjust, ← daaDigits_or]
  cases flagN f <;> simp [lowNibble]

theorem add_byteOf (a : Byte) (n : Nat) : a + byteOf n = byteOf (a.toNat + n) := by
  simp [byteOf, BitVec.ofNat_add]

theorem sub_byteOf (a : Byte) {n : Nat} (h : n ≤ 256) : a - byteOf n = byteOf (a.toNat + 256 - n) := by
  apply BitVec.eq_of_toNat_eq
  simp only [byteOf, BitVec.toNat_sub, BitVec.toNat_ofNat]
  omega

theorem aluDaa_val (a f : Byte) : (aluDaa a f).val = byteOf (daaResult a f) := by
  have hle : daaLow a f + daaHigh a f ≤ 256 := by
    have := daaLow_le a f
    have := daaHigh_le a f
    omega
  simp only [aluDaa, daaAdjust_eq, daaResult, add_byteOf, sub_byteOf a hle]
  split <;> rfl

theorem aluDaa_f (a f : Byte) :
    (aluDaa a f).f = flagsByte (daaResult a f % 256 == 0) (flagN f) false (daaHigh a f == 0x60) :=
  calc (aluDaa a f).f
    _ = mkF ((aluDaa a f).val == 0) (flagN f) false (daaAdjust a f).2 := rfl
    _ = _ := by rw [aluDaa_val, daaAdjust_eq, mkF_eq_flagsByte, byteOf, ofNat8_beq_zero]

theorem exec_daa (s : State) :
    exec .daa s = .next { s with
      cpu := { s.cpu with
        a := byteOf (daaResult s.cpu.a s.cpu.f)
        f := flagsByte (daaResult s.cpu.a s.cpu.f % 256 == 0) (flagN s.cpu.f) false (daaHigh s.cpu.a s.cpu.f == 0x60) }
      cycles := 4 } := by
  rw [← aluDaa_val, ← aluDaa_f]
  rfl

/-- Settles O21: `exec_daa`, with `daaResult` and `daaHigh` written out in the claim. -/
theorem decimalAdjust : Obligations.DecimalAdjust := by
  unfold Obligations.DecimalAdjust
  exact fun s => ⟨reads_of_encode rfl rfl, exec_daa s⟩

/-! ### CPL, SCF and CCF, R194 to R196 -/

/-- Settles O22: `mkF` is the flag byte in the integers, and `255 - A` the complement of A. -/
theorem complementAndCarryFlag : Obligations.ComplementAndCarryFlag := by
  unfold Obligations.ComplementAndCarryFlag
  intro s
  simp only [complement_spec, ← mkF_eq_flagsByte]
  exact ⟨⟨reads_of_encode rfl rfl, rfl⟩, ⟨reads_of_encode rfl rfl, rfl⟩, ⟨reads_of_encode rfl rfl, rfl⟩⟩

end Sys2Proof.Machine

/-! The 16-bit arithmetic of 43_alu16.md: HL, a pair or SP written, with the result and the flags put in the integers. -/

namespace Sys2Proof.Machine

/-! ### Encodings, R107 -/

theorem encode_addHlRr (p : Pair) : encode (.addHlRr p) = [byteOf (0x09 + 16 * pairNum p)] := by cases p <;> rfl

theorem encode_incRr (p : Pair) : encode (.incRr p) = [byteOf (0x03 + 16 * pairNum p)] := by cases p <;> rfl

theorem encode_decRr (p : Pair) : encode (.decRr p) = [byteOf (0x0B + 16 * pairNum p)] := by cases p <;> rfl

/-! ### Next states -/

theorem loByte_ofNat (n : Nat) : loByte (BitVec.ofNat 16 n) = byteOf n := by
  apply BitVec.eq_of_toNat_eq
  rw [toNat_loByte, BitVec.toNat_ofNat, byteOf, BitVec.toNat_ofNat]
  omega

theorem hiByte_ofNat (n : Nat) : hiByte (BitVec.ofNat 16 n) = byteOf (n / 256) := by
  apply BitVec.eq_of_toNat_eq
  rw [toNat_hiByte, BitVec.toNat_ofNat, byteOf, BitVec.toNat_ofNat]
  omega

/-- R220: Z is kept; H and C are the carries out of bits 11 and 15. -/
theorem aluAddHl_f (hl x : Word) (f : Byte) :
    (aluAddHl hl x f).2 = flagsByte (f.getLsbD 7) false (hl.toNat % 4096 + x.toNat % 4096 > 4095)
      (hl.toNat + x.toNat > 65535) :=
  mkF_eq_flagsByte _ _ _ _

/-- R220: the sum goes to H and L by its bytes, modulo 65536. -/
theorem exec_addHlRr (p : Pair) (s : State) :
    exec (.addHlRr p) s = .next { s with
      cpu := { s.cpu with
        h := byteOf ((s.hl.toNat + (s.pair p).toNat) / 256), l := byteOf (s.hl.toNat + (s.pair p).toNat)
        f := (aluAddHl s.hl (s.pair p) s.cpu.f).2 }
      cycles := 8 } := by
  rw [← hiByte_ofNat, ← loByte_ofNat]
  rfl

/-- An operation on a pair: the meaning is that pair written. -/
theorem exec_setPairTo {i : Instr} {s : State} {p : Pair} {v : Word} {n : Nat}
    (h : exec i s = .next ((s.setPair p v).took n)) : ∃ t, exec i s = .next t ∧ s.SetPairTo t p v n :=
  ⟨_, h, s.setPair_SetTo p v n⟩

/-! ### The obligation -/

/-- Settles O23: ADD HL,rr is `exec_addHlRr`; INC rr and DEC rr are one `setPair`, which leaves F; SP + e, with the signed
e, is `sext16` of e added modulo 65536. -/
theorem arithmetic16 : Obligations.Arithmetic16 := by
  unfold Obligations.Arithmetic16
  intro s
  simp only [ofNat_toNat_succ, ofNat_toNat_pred, ofInt_add_sext16, ← aluAddHl_f, ← aluAddSp_f]
  exact ⟨
    fun p => ⟨reads_of_encode (encode_addHlRr p) rfl, exec_addHlRr p s⟩,
    fun p => ⟨reads_of_encode (encode_incRr p) rfl, exec_setPairTo rfl⟩,
    fun p => ⟨reads_of_encode (encode_decRr p) rfl, exec_setPairTo rfl⟩,
    fun _ => ⟨reads_of_encode rfl rfl, rfl⟩⟩

end Sys2Proof.Machine

/-! The rotates, shifts and bit operations of 44_rotate_shift_bit.md: the accumulator rotates, and the extended set on a
register and on the byte at HL. The results in the integers are the `_spec` lemmas of `Laws/Flags`. -/

namespace Sys2Proof.Machine

/-! ### Encodings, R104 to R106: no two fields of the second byte share a bit, so joining them is adding them -/

theorem byteOf_block_or_bitField_or_reg8Code (r : Reg8) : ∀ x < 4, ∀ b : BitVec 3,
    byteOf (64 * x) ||| bitField b ||| reg8Code r = byteOf (64 * x + 8 * b.toNat + regNum r) := by
  cases r <;> decide

theorem byteOf_block_or_bitField : ∀ x < 4, ∀ b : BitVec 3,
    byteOf (64 * x + 6) ||| bitField b = byteOf (64 * x + 6 + 8 * b.toNat) := by
  decide

theorem byteOf_cbRow_or_reg8Code (r : Reg8) : ∀ k < 8, byteOf (8 * k) ||| reg8Code r = byteOf (8 * k + regNum r) := by
  cases r <;> decide

/-- Block `x` of the extended set (bits 7:6), for bit number `b` and a register. -/
theorem reads_cbRegister (x : Nat) {b : BitVec 3} {r : Reg8} {i : Instr}
    (h : encode i = withCb (byteOf (64 * x) ||| bitField b ||| reg8Code r)) (hx : x < 4 := by decide)
    (hi : i.wellFormed = true := by rfl) : Reads [0xCB, byteOf (64 * x + 8 * b.toNat + regNum r)] i := by
  rw [← byteOf_block_or_bitField_or_reg8Code r x hx b]
  exact reads_of_encode h hi

/-- Block `x` of the extended set (bits 7:6), for bit number `b` and the byte at HL. -/
theorem reads_cbMemory (x : Nat) {b : BitVec 3} {i : Instr}
    (h : encode i = withCb (byteOf (64 * x + 6) ||| bitField b)) (hx : x < 4 := by decide)
    (hi : i.wellFormed = true := by rfl) : Reads [0xCB, byteOf (64 * x + 6 + 8 * b.toNat)] i := by
  rw [← byteOf_block_or_bitField x hx b]
  exact reads_of_encode h hi

/-! ### The accumulator rotates, R230 to R233 -/

/-- R230 to R233: A and the bit that left it, with Z = N = H = 0. -/
theorem exec_accRotate {i : Instr} {s : State} {o : Byte × Bool} {v : Byte} {c : Bool} {n : Nat}
    (h : exec i s = .next ((s.setAFlags (accRotate o)).took n)) (ho : v = o.1 ∧ c = o.2) :
    exec i s = .next { s with
      cpu := { s.cpu with a := v, f := flagsByte false false false c }, cycles := n } := by
  obtain ⟨rfl, rfl⟩ := ho
  rw [h, ← mkF_eq_flagsByte]
  rfl

/-- Settles O24: each rule is `accRotate` of a rotate, whose result and bit out in the integers are its `_spec`. -/
theorem accumulatorRotates : Obligations.AccumulatorRotates := by
  unfold Obligations.AccumulatorRotates
  exact fun s => ⟨
    ⟨reads_of_encode rfl rfl, exec_accRotate rfl (rotLeft_spec _)⟩,
    ⟨reads_of_encode rfl rfl, exec_accRotate rfl (rotRight_spec _)⟩,
    ⟨reads_of_encode rfl rfl, exec_accRotate rfl (rotLeftCarry_spec _ _)⟩,
    ⟨reads_of_encode rfl rfl, exec_accRotate rfl (rotRightCarry_spec _ _)⟩⟩

/-! ### The two forms of a rotate, a shift or SWAP, R234 to R242 -/

/-- R234: `iR` and `iM`, at row `k` of the block 00 to 3F of the extended set, both write `op` of the operand and the carry
back. The fields hold by computation for every operation of the rule. -/
structure CbForms (k : Nat) (iR : Reg8 → Instr) (iM : Instr) (op : Byte → Bool → Byte × Bool) : Prop where
  row_lt : k < 8 := by decide
  encodeR : ∀ r, encode (iR r) = withCb (byteOf (8 * k) ||| reg8Code r) := by intros; rfl
  encodeM : encode iM = withCb (byteOf (8 * k + 6)) := by rfl
  wfR : ∀ r, (iR r).wellFormed = true := by intros; rfl
  wfM : iM.wellFormed = true := by rfl
  execR : ∀ r s, exec (iR r) s = .next ((s.setRegAlu r (cbShift (op (s.reg r) (flagC s.cpu.f)))).took 8) := by
    intros; rfl
  execM : ∀ s, exec iM s = .next ((s.writeMAlu (cbShift (op s.readM (flagC s.cpu.f)))).took 16) := by intros; rfl

/-- R235 to R242: Z says whether the number written back is 0 modulo 256. -/
theorem cbShift_f_of_eq {o : Byte × Bool} {m : Nat} {c : Bool} (ho : byteOf m = o.1 ∧ c = o.2) :
    (cbShift o).f = flagsByte (m % 256 == 0) false false c := by
  obtain ⟨hv, rfl⟩ := ho
  rw [cbShift, ← hv, mkF_eq_flagsByte, byteOf, ofNat8_beq_zero]

/-- What is left of a rotate, a shift or SWAP is its result and the bit shifted out, in the integers. -/
theorem CbForms.cbOp {k : Nat} {iR : Reg8 → Instr} {iM : Instr} {op : Byte → Bool → Byte × Bool}
    {val : Nat → Nat → Nat} {carry : Nat → Bool} (h : CbForms k iR iM op)
    (spec : ∀ v c, byteOf (val v.toNat (bit c)) = (op v c).1 ∧ carry v.toNat = (op v c).2) :
    CbOp k iR iM val carry := by
  intro s
  refine ⟨fun r => ⟨?_, ?_⟩, ?_, ?_⟩
  · rw [← byteOf_cbRow_or_reg8Code r k h.row_lt]
    exact reads_of_encode (h.encodeR r) (h.wfR r)
  · exact exec_setRegAlu (h.execR r s) (spec _ _).1.symm (cbShift_f_of_eq (spec _ _))
  · exact reads_of_encode h.encodeM h.wfM
  · exact exec_writeMAlu (h.execM s) (spec _ _).1.symm (cbShift_f_of_eq (spec _ _))

/-- Settles O25: RL and RR take the carry in; the other rows are operations on the operand alone. -/
theorem rotatesAndShifts : Obligations.RotatesAndShifts := by
  unfold Obligations.RotatesAndShifts
  have rlcForms : CbForms 0 .rlcR .rlcM (fun v _ => rotLeft v) := {}
  have rrcForms : CbForms 1 .rrcR .rrcM (fun v _ => rotRight v) := {}
  have rlForms : CbForms 2 .rlR .rlM rotLeftCarry := {}
  have rrForms : CbForms 3 .rrR .rrM rotRightCarry := {}
  have slaForms : CbForms 4 .slaR .slaM (fun v _ => shiftLeft v) := {}
  have sraForms : CbForms 5 .sraR .sraM (fun v _ => shiftRightArith v) := {}
  have swapForms : CbForms 6 .swapR .swapM (fun v _ => swapNibbles v) := {}
  have srlForms : CbForms 7 .srlR .srlM (fun v _ => shiftRightLogic v) := {}
  exact ⟨
    rlcForms.cbOp fun v _ => rotLeft_spec v,
    rrcForms.cbOp fun v _ => rotRight_spec v,
    rlForms.cbOp rotLeftCarry_spec,
    rrForms.cbOp rotRightCarry_spec,
    slaForms.cbOp fun v _ => shiftLeft_spec v,
    sraForms.cbOp fun v _ => shiftRightArith_spec v,
    swapForms.cbOp fun v _ => swapNibbles_spec v,
    srlForms.cbOp fun v _ => shiftRightLogic_spec v⟩

/-! ### BIT, RES and SET, R243 to R245 -/

/-- Settles O26: BIT writes F alone, from `bitFlags`; RES and SET write the operand with one bit cleared or set and leave
F. -/
theorem bitOperations : Obligations.BitOperations := by
  unfold Obligations.BitOperations
  intro b s
  simp only [bitFlags_spec, clearBit_spec, setBit_spec]
  exact ⟨
    fun _ => ⟨reads_cbRegister 1 rfl, rfl⟩,
    ⟨reads_cbMemory 1 rfl, rfl⟩,
    fun _ => ⟨reads_cbRegister 2 rfl, exec_setTo rfl⟩,
    ⟨reads_cbMemory 2 rfl, exec_memWrite rfl⟩,
    fun _ => ⟨reads_cbRegister 3 rfl, exec_setTo rfl⟩,
    ⟨reads_cbMemory 3 rfl, exec_memWrite rfl⟩⟩

end Sys2Proof.Machine

/-! The jumps, calls and returns of 45_control.md. The conditional forms choose between two next states by `State.cond`, whose
law `condHolds_eq` puts the condition in the bits of F; a target in the integers is `hl`, `relTarget`, `rstTarget` or
`popValue` by its law in `Laws/Flags`. -/

namespace Sys2Proof.Machine

/-! ### Encodings, R108, R109 -/

theorem encode_jpCcNn (cc : Cond) (nn : Word) : encode (.jpCcNn cc nn) = withWord (byteOf (0xC2 + 8 * condNum cc)) nn := by
  cases cc <;> rfl

theorem encode_jrCcE (cc : Cond) (e : Byte) : encode (.jrCcE cc e) = [byteOf (0x20 + 8 * condNum cc), e] := by
  cases cc <;> rfl

theorem encode_callCcNn (cc : Cond) (nn : Word) :
    encode (.callCcNn cc nn) = withWord (byteOf (0xC4 + 8 * condNum cc)) nn := by
  cases cc <;> rfl

theorem encode_retCc (cc : Cond) : encode (.retCc cc) = [byteOf (0xC0 + 8 * condNum cc)] := by cases cc <;> rfl

theorem encode_rst : ∀ t : BitVec 3, encode (.rst t) = [byteOf (0xC7 + 8 * t.toNat)] := by decide

/-! ### Next states -/

/-- R260: a conditional form has one next state where the condition holds and another where it does not. -/
theorem exec_ifCond {i : Instr} {cc : Cond} {s taken notTaken : State}
    (h : exec i s = if s.cond cc then .next taken else .next notTaken) :
    exec i s = .next (if condHolds cc s.cpu.f then taken else notTaken) := by
  rw [h, condHolds_eq, apply_ite Host.Outcome.next]

/-! ### The obligations -/

/-- Settles O28: a jump taken is one `setPc`, and one not taken changes the cycle count alone. -/
theorem jumps : Obligations.Jumps := by
  unfold Obligations.Jumps
  intro s
  simp only [ofNat_hl, ofInt_relTarget]
  exact ⟨
    fun _ => ⟨reads_of_encode_withWord rfl rfl, rfl⟩,
    fun cc nn => ⟨reads_of_encode_withWord (encode_jpCcNn cc nn) rfl, exec_ifCond rfl⟩,
    ⟨reads_of_encode rfl rfl, rfl⟩,
    fun _ => ⟨reads_of_encode rfl rfl, rfl⟩,
    fun cc e => ⟨reads_of_encode (encode_jrCcE cc e) rfl, exec_ifCond rfl⟩⟩

/-- Settles O29: each call taken is `State.call`, which `call_took` writes as two stores, SP and PC; the PC it pushes is past
the instruction. -/
theorem calls : Obligations.Calls := by
  unfold Obligations.Calls
  intro s
  simp only [ofNat_rstTarget, ← State.call_took]
  exact ⟨
    fun _ => ⟨reads_of_encode_withWord rfl rfl, rfl⟩,
    fun cc nn => ⟨reads_of_encode_withWord (encode_callCcNn cc nn) rfl, exec_ifCond rfl⟩,
    fun t => ⟨reads_of_encode (encode_rst t) rfl, rfl⟩⟩

/-- Settles O30: each return taken moves `popValue` to PC and raises SP by 2; RETI also sets IME at once. -/
theorem returns : Obligations.Returns := by
  unfold Obligations.Returns
  intro s
  simp only [ofNat_popValue]
  exact ⟨
    ⟨reads_of_encode rfl rfl, rfl⟩,
    fun cc => ⟨reads_of_encode (encode_retCc cc) rfl, exec_ifCond rfl⟩,
    ⟨reads_of_encode rfl rfl, rfl⟩⟩

end Sys2Proof.Machine

/-! The system instructions and the illegal opcodes of 46_misc_system.md: what each answers after its fetch, and the fault that
a faulted machine answers at every step. -/

namespace Sys2Proof.Machine

/-! ### Next states and stops -/

/-- R291: the HALT bug is set up only where IME is 0 and an interrupt is pending. -/
theorem exec_halt (s : State) : exec .halt s = .next
    (if s.cpu.ime = false ∧ s.pending ≠ 0 then { s with cpu := { s.cpu with haltBug := true }, cycles := 4 }
     else { s with cpu := { s.cpu with halted := true }, cycles := 4 }) :=
  (apply_ite Host.Outcome.next _ _ _).symm

theorem exec_stop_of_nop2 {s : State} (h : s.params.stopMode = .nop2) (n : Byte) :
    exec (.stop n) s = .next (s.took 4) := by
  change execStop n s = _
  rw [execStop, h]

theorem exec_stop_of_refuse {s : State} (h : s.params.stopMode = .refuse) (n : Byte) :
    exec (.stop n) s = .refused .stopHasNoMeaning := by
  change execStop n s = _
  rw [execStop, h]

/-- R294: EI_DELAY chooses which of the two bits EI sets. -/
theorem exec_ei (s : State) : exec .ei s = .next
    (if s.params.eiDelay then { s with cpu := { s.cpu with imePending := true }, cycles := 4 }
     else { s with cpu := { s.cpu with ime := true }, cycles := 4 }) :=
  (apply_ite Host.Outcome.next _ _ _).symm

/-- R310, R312: nothing runs in a faulted machine. -/
theorem step_of_fault {s : State} {op : Byte} (hi : s.inputs = []) (hf : s.cpu.fault = some op) :
    step s = .fault (.invalidOpcode op) := by
  rw [step, State.applyInputs_nil s hi, systemStep, hf]

/-! ### The obligations -/

/-- Settles O31: NOP and DI have one outcome; HALT, STOP and EI choose by `exec_halt`, `exec_stop_of_nop2`,
`exec_stop_of_refuse` and `exec_ei`. -/
theorem systemInstructions : Obligations.SystemInstructions := by
  unfold Obligations.SystemInstructions
  intro s
  exact ⟨
    ⟨reads_of_encode rfl rfl, rfl⟩,
    ⟨reads_of_encode rfl rfl, exec_halt s⟩,
    fun n => ⟨reads_of_encode rfl rfl, fun h => exec_stop_of_nop2 h n, fun h => exec_stop_of_refuse h n⟩,
    ⟨reads_of_encode rfl rfl, rfl⟩,
    ⟨reads_of_encode rfl rfl, exec_ei s⟩⟩

/-- Settles O8: each illegal instruction is encoded as its byte and raises the fault with it; the fault then stays by
`step_of_fault`. -/
theorem illegalOpcodesFault : Obligations.IllegalOpcodesFault := by
  unfold Obligations.IllegalOpcodesFault
  refine ⟨?_, fun _ _ => step_of_fault⟩
  simp only [List.forall_mem_cons]
  refine ⟨?_, ?_, ?_, ?_, ?_, ?_, ?_, ?_, ?_, ?_, ?_, List.forall_mem_nil _⟩ <;>
    exact ⟨reads_of_encode rfl rfl, fun _ => rfl⟩

end Sys2Proof.Machine

/-! The step of 60_exceptions.md: which of its three forms a `CpuStep` takes, what each of them answers, where a fault or
a refusal can come from, and that the HALT bug shuts out a dispatch. -/

namespace Sys2Proof.Machine

/-! ### What an instruction answers, R311, R341 -/

/-- The eleven bytes of R295. -/
def illegalOpcodes : List Byte := [0xD3, 0xDB, 0xDD, 0xE3, 0xE4, 0xEB, 0xEC, 0xED, 0xF4, 0xFC, 0xFD]

theorem ite_completes {c : Prop} [Decidable c] {a b : State} :
    ∃ t, (if c then .next a else .next b : Result) = .next t :=
  ⟨_, (apply_ite Host.Outcome.next c a b).symm⟩

/-- Everything an instruction can answer: a next state, the fault of an illegal opcode's byte, the refusal of STOP. -/
theorem exec_cases (i : Instr) (s : State) :
    (∃ t, exec i s = .next t) ∨
    (∃ op ∈ illegalOpcodes, encode i = [op] ∧ exec i s = .fault (.invalidOpcode op)) ∨
    (∃ n, i = .stop n ∧ s.params.stopMode = .refuse ∧ exec i s = .refused .stopHasNoMeaning) := by
  cases i
  case illegalD3 | illegalDB | illegalDD | illegalE3 | illegalE4 | illegalEB | illegalEC | illegalED | illegalF4
      | illegalFC | illegalFD => exact .inr (.inl ⟨_, by decide, rfl, rfl⟩)
  case stop n =>
    cases hm : s.params.stopMode with
    | nop2 => exact .inl ⟨_, exec_stop_of_nop2 hm n⟩
    | refuse => exact .inr (.inr ⟨n, rfl, rfl, exec_stop_of_refuse hm n⟩)
  case prefixCb op2 => exact .inl (execPrefixCb_completes op2 s)
  case jpCcNn | jrCcE | callCcNn | retCc | halt | ei => exact .inl ite_completes
  all_goals exact .inl ⟨_, rfl⟩

theorem exec_fault {i : Instr} {s : State} {r : Fault} (h : exec i s = .fault r) :
    ∃ op ∈ illegalOpcodes, r = .invalidOpcode op ∧ encode i = [op] := by
  obtain ⟨t, ht⟩ | ⟨op, hop, henc, hx⟩ | ⟨n, -, -, hx⟩ := exec_cases i s
  · cases ht.symm.trans h
  · cases hx.symm.trans h
    exact ⟨op, hop, rfl, henc⟩
  · cases hx.symm.trans h

theorem exec_refused {i : Instr} {s : State} {r : Refusal} (h : exec i s = .refused r) :
    (∃ n, i = .stop n) ∧ s.params.stopMode = .refuse ∧ r = .stopHasNoMeaning := by
  obtain ⟨t, ht⟩ | ⟨op, -, -, hx⟩ | ⟨n, hi, hm, hx⟩ := exec_cases i s
  · cases ht.symm.trans h
  · cases hx.symm.trans h
  · cases hx.symm.trans h
    exact ⟨⟨n, hi⟩, hm, rfl⟩

/-! ### The fetched bytes, R112, R113 -/

theorem encode_fetched (s : State) : encode s.fetched =
    [s.opcodeByte, s.memRead .fetch1 s.pcAfterOpcode, s.memRead .fetch2 (s.pcAfterOpcode + 1)].take
      (opcodeLength s.opcodeByte) :=
  (encodeOfDecode _ _ _).2

theorem opcodeLength_le : ∀ op : Byte, opcodeLength op ≤ 3 := by decide +kernel

theorem length_encode_fetched (s : State) : (encode s.fetched).length = opcodeLength s.opcodeByte := by
  rw [encode_fetched, List.length_take]
  exact Nat.min_eq_left (opcodeLength_le _)

theorem head?_encode_fetched (s : State) : (encode s.fetched).head? = some s.opcodeByte := by
  rw [encode_fetched, List.head?_take, if_neg (Nat.one_le_iff_ne_zero.mp (opcodeLength_pos _))]
  rfl

theorem State.fetched_enableDelayed_awake (s : State) : s.awake.enableDelayed.fetched = s.fetched := by
  rw [State.enableDelayed_awake]
  exact State.fetched_cpu s _ rfl rfl

/-- R314: the state an instruction's effect starts from, PC moved by the length of what was fetched. -/
theorem State.afterFetch_enableDelayed_awake (s : State) : s.awake.enableDelayed.afterFetch =
    { s with cpu := { s.cpu with
        pc := s.pcAfterOpcode + BitVec.ofNat 16 ((encode s.fetched).length - 1)
        halted := false
        ime := s.cpu.ime || s.cpu.imePending
        imePending := false
        haltBug := false } } := by
  rw [State.enableDelayed_awake, length_encode_fetched]
  rfl

/-! ### The three forms of CpuStep, R314 -/

theorem cpuStep_halted {s : State} (hh : s.cpu.halted = true) (hp : s.pending = 0) :
    cpuStep s = .next (s.took s.params.haltTickCycles) := if_pos ⟨hh, hp⟩

theorem cpuStep_dispatch {s : State} (hi : s.cpu.ime = true) (hp : s.pending ≠ 0) :
    cpuStep s = .next (s.awake.takeInterrupt s.pending) :=
  (if_neg fun h => hp h.2).trans (if_pos ⟨hi, hp⟩)

theorem cpuStep_execute {s : State} (hh : ¬(s.cpu.halted = true ∧ s.pending = 0))
    (hi : ¬(s.cpu.ime = true ∧ s.pending ≠ 0)) :
    cpuStep s = exec s.fetched s.awake.enableDelayed.afterFetch := by
  rw [← State.fetched_enableDelayed_awake]
  exact (if_neg hh).trans (if_neg hi)

/-- A `CpuStep` that answers no next state runs an instruction. -/
theorem cpuStep_cases (s : State) :
    (∃ t, cpuStep s = .next t) ∨ cpuStep s = exec s.fetched s.awake.enableDelayed.afterFetch := by
  by_cases hh : s.cpu.halted = true ∧ s.pending = 0
  · exact .inl ⟨_, cpuStep_halted hh.1 hh.2⟩
  by_cases hi : s.cpu.ime = true ∧ s.pending ≠ 0
  · exact .inl ⟨_, cpuStep_dispatch hi.1 hi.2⟩
  exact .inr (cpuStep_execute hh hi)

/-- R325: with an interrupt pending it does not matter whether the core was halted. -/
theorem cpuStep_awake {s : State} (hp : s.pending ≠ 0) : cpuStep s = cpuStep s.awake := by
  cases hi : s.cpu.ime with
  | true => exact (cpuStep_dispatch hi hp).trans (cpuStep_dispatch (s := s.awake) hi hp).symm
  | false =>
    have hno : ¬(s.cpu.ime = true ∧ s.pending ≠ 0) := by simp [hi]
    rw [cpuStep_execute (fun h => hp h.2) hno, cpuStep_execute (s := s.awake) (fun h => hp h.2) hno]
    rfl

/-! ### The step around CpuStep, R310 -/

section
variable {s t : State}

theorem step_of_cpuStep_next (hi : s.inputs = []) (hf : s.cpu.fault = none) (h : cpuStep s = .next t) :
    step s = .next (t.advance t.cycles) := by
  rw [step_of_no_input s hi hf, h]

theorem cpuStep_of_step_fault {r : Fault} (hi : s.inputs = []) (hf : s.cpu.fault = none) (h : step s = .fault r) :
    cpuStep s = .fault r := by
  rw [step_of_no_input s hi hf] at h
  cases hc : cpuStep s <;> rw [hc] at h <;> cases h
  rfl

theorem cpuStep_of_step_refused {r : Refusal} (hi : s.inputs = []) (h : step s = .refused r) :
    cpuStep s = .refused r := by
  cases hf : s.cpu.fault with
  | some op => cases (step_of_fault hi hf).symm.trans h
  | none =>
    rw [step_of_no_input s hi hf] at h
    cases hc : cpuStep s <;> rw [hc] at h <;> cases h
    rfl

end

/-! ### Running the instruction at PC: R314, R326 -/

/-- The two ways of having no dispatch, R314. -/
theorem not_dispatch {s : State} (h : s.cpu.ime = false ∨ s.pending = 0) : ¬(s.cpu.ime = true ∧ s.pending ≠ 0) := by
  obtain h | h := h <;> simp [h]

theorem add_one_add_ofNat_pred (w : Word) {n : Nat} (h : 1 ≤ n) :
    w + 1 + BitVec.ofNat 16 (n - 1) = w + BitVec.ofNat 16 n := by
  bv_omega

/-- Settles O4: with no HALT bug the operands start at `PC + 1` and PC moves by the whole length. -/
theorem stepRunsDecodedInstruction : Obligations.StepRunsDecodedInstruction := by
  unfold Obligations.StepRunsDecodedInstruction
  intro s i hin hf hh hb hi hdec
  have hpc : s.pcAfterOpcode = s.cpu.pc + 1 := by simp [State.pcAfterOpcode, hb]
  have hfet : s.fetched = i := by
    rw [← hdec, State.fetched, hpc, BitVec.add_assoc]
    rfl
  have hlen : 1 ≤ (encode i).length := by
    rw [← hfet, length_encode_fetched]
    exact opcodeLength_pos _
  rw [step_of_no_input s hin hf, cpuStep_execute (by simp [hh]) (not_dispatch hi),
    State.afterFetch_enableDelayed_awake, hfet, hpc, add_one_add_ofNat_pred _ hlen]
  simp only [hh, hb] <;> rfl

/-- Settles O5: the HALT bug leaves PC at the opcode, so PC moves by the length of the operands alone. -/
theorem haltBugRepeatsOpcodeByte : Obligations.HaltBugRepeatsOpcodeByte := by
  unfold Obligations.HaltBugRepeatsOpcodeByte
  intro s i hin hf hh hb hi hdec
  have hpc : s.pcAfterOpcode = s.cpu.pc := by simp [State.pcAfterOpcode, hb]
  have hfet : s.fetched = i := by
    rw [← hdec, State.fetched, hpc]
    rfl
  rw [step_of_no_input s hin hf, cpuStep_execute (by simp [hh]) (not_dispatch hi),
    State.afterFetch_enableDelayed_awake, hfet, hpc]
  simp only [hh] <;> rfl

/-! ### HALT and interrupts: R320, R324, R325 -/

/-- Settles O6: `cpuStep_halted` with nothing pending, `cpuStep_awake` otherwise. -/
theorem haltedTickAndWake : Obligations.HaltedTickAndWake := by
  unfold Obligations.HaltedTickAndWake
  intro s hin hf hh
  refine ⟨fun hp => step_of_cpuStep_next hin hf (cpuStep_halted hh hp), fun hp => ?_⟩
  change step s = step s.awake
  rw [step_of_no_input s hin hf, step_of_no_input s.awake hin hf, cpuStep_awake hp]

/-- R315. -/
theorem lowestPending_eq : ∀ (p : BitVec 5) (i : Nat), i < 5 → p.getLsbD i = true →
    (∀ j, j < i → p.getLsbD j = false) → lowestPending p = i := by decide

/-- Clearing a set request takes its weight away. -/
theorem clearRequest_eq : ∀ (r : BitVec 5) (i : Nat), i < 5 → r.getLsbD i = true →
    r &&& ~~~(1#5 <<< i) = BitVec.ofNat 5 (r.toNat - 2 ^ i) := by decide

theorem interruptVector_eq (i : Nat) : interruptVector i = BitVec.ofNat 16 (0x40 + 8 * i) :=
  (BitVec.ofNat_add 0x40 (8 * i)).symm

/-- R320: everything a dispatch out of a halted or a running core changes, in the terms of the state before it. -/
theorem State.takeInterrupt_awake (s : State) (p : BitVec 5) :
    let s1 := { s with ifReg := s.ifReg &&& ~~~(1#5 <<< lowestPending p) }
    s.awake.takeInterrupt p =
      { (s1.memWrite (s.cpu.sp - 1) (hiByte s.cpu.pc)).memWrite (s.cpu.sp - 2) (loByte s.cpu.pc) with
        cpu := { s.cpu with
          ime := false, imePending := false, halted := false
          sp := s.cpu.sp - 2, pc := interruptVector (lowestPending p) }
        cycles := s.params.intDispatchCycles } := by
  intro s1
  have first := State.memWrite_cpu_update s1 s.awake.cpu s.cycles (s.cpu.sp - 1) (hiByte s.cpu.pc)
  have both := State.memWrite_of_eq first (s.cpu.sp - 2) (loByte s.cpu.pc)
  rw [State.takeInterrupt_eq]
  exact congrArg (fun u : State => { u with
    cpu := { s.cpu with
      ime := false, imePending := false, halted := false
      sp := s.cpu.sp - 2, pc := interruptVector (lowestPending p) }
    cycles := s.params.intDispatchCycles }) both

/-- Settles O7: bit `i` is pending, so the step dispatches, and the interrupt it takes is `i`. -/
theorem interruptDispatch : Obligations.InterruptDispatch := by
  unfold Obligations.InterruptDispatch
  intro s i hin hf hime hi hset hlow s1 s2
  have hp : s.pending ≠ 0 := by
    intro h
    rw [State.pending] at h
    simp [h] at hset
  have hlowest : lowestPending s.pending = i := lowestPending_eq _ i hi hset hlow
  have hrequest : s.ifReg.getLsbD i = true := by
    rw [BitVec.getLsbD_and, Bool.and_eq_true] at hset
    exact hset.1
  rw [step_of_cpuStep_next hin hf (cpuStep_dispatch hime hp), State.takeInterrupt_awake, hlowest,
    clearRequest_eq _ i hi hrequest, interruptVector_eq, ← byteOf_toNat_div, ← byteOf_toNat]

/-! ### Faults and refusals, R311, R341 -/

/-- Settles O9: the fault is that of the instruction fetched, which encodes to the byte in the fault. -/
theorem onlyIllegalOpcodesFault : Obligations.OnlyIllegalOpcodesFault := by
  unfold Obligations.OnlyIllegalOpcodesFault
  intro s r hin hf h
  have hc := cpuStep_of_step_fault hin hf h
  obtain ⟨t, ht⟩ | hx := cpuStep_cases s
  · cases ht.symm.trans hc
  · obtain ⟨op, hop, hr, henc⟩ := exec_fault (hx.symm.trans hc)
    have hhead := head?_encode_fetched s
    rw [henc] at hhead
    exact ⟨op, hop, hr, (Option.some.inj hhead).symm⟩

/-- Settles O10: `exec_refused`; a step refuses only where the instruction it runs does, under the same parameters. -/
theorem refusalOnlyFromStop : Obligations.RefusalOnlyFromStop := by
  unfold Obligations.RefusalOnlyFromStop
  refine ⟨fun _ _ _ => exec_refused, fun s r hin hm h => ?_⟩
  have hc := cpuStep_of_step_refused hin h
  obtain ⟨t, ht⟩ | hx := cpuStep_cases s
  · cases ht.symm.trans hc
  · rw [State.afterFetch_enableDelayed_awake] at hx
    obtain ⟨-, hrefuse, -⟩ := exec_refused (hx.symm.trans hc)
    cases hm.symm.trans hrefuse

/-! ### The HALT bug shuts out a dispatch, R320, R326 -/

namespace Cpu.HaltBugInv

theorem of_haltBug_eq_false {c : Cpu} (h : c.haltBug = false) : c.HaltBugInv :=
  fun hb => nomatch h.symm.trans hb

/-- R291: HALT sets the bug up only with IME = 0; no other instruction does. -/
theorem of_exec {i : Instr} {s t : State} (hb : s.cpu.haltBug = false) (hp : s.cpu.imePending = false)
    (hh : s.cpu.halted = false) (hx : exec i s = .next t) : t.cpu.HaltBugInv := by
  by_cases hi : i = .halt
  · subst hi
    obtain ⟨⟨hime, -⟩, rfl⟩ | ⟨-, rfl⟩ := ite_next_cases hx
    · exact fun _ => ⟨hime, hp, hh⟩
    · exact of_haltBug_eq_false hb
  · have kept := (exec_cpuFrame hx).halt (movesHalt_eq_false (resolved_ne_halt hi))
    exact of_haltBug_eq_false (kept.2.trans hb)

/-- A dispatch starts with IME = 1, so with no HALT bug; an instruction starts with the bug consumed. -/
theorem of_cpuStep {s t : State} (h : s.cpu.HaltBugInv) (hs : cpuStep s = .next t) : t.cpu.HaltBugInv := by
  obtain ⟨-, -, rfl⟩ | ⟨hime, -, rfl⟩ | ⟨-, -, hx⟩ := cpuStep_next_cases hs
  · exact h
  · rw [State.takeInterrupt_awake]
    exact of_haltBug_eq_false (Bool.eq_false_iff.mpr fun hb => nomatch hime.symm.trans (h hb).1)
  · rw [State.afterFetch_enableDelayed_awake] at hx
    exact of_exec rfl rfl rfl hx

end Cpu.HaltBugInv

theorem cpuStep_params {s t : State} (hs : cpuStep s = .next t) : t.params = s.params := by
  obtain ⟨-, -, rfl⟩ | ⟨-, -, rfl⟩ | ⟨-, -, hx⟩ := cpuStep_next_cases hs
  · rfl
  · exact State.takeInterrupt_params _ _
  · rw [State.afterFetch_enableDelayed_awake] at hx
    exact (exec_params hx).trans rfl

theorem State.HaltBugInv.of_event {s : State} (h : s.HaltBugInv) (e : HostEvent) : (applyEvent s e).HaltBugInv := by
  cases e
  case reset => exact ⟨h.2, h.2⟩
  all_goals exact h

/-- Settles O60: an event takes the CPU from the reset values or leaves it; `Cpu.HaltBugInv.of_cpuStep` is the rest. -/
theorem stepKeepsHaltBugUndispatched : Obligations.StepKeepsHaltBugUndispatched := by
  unfold Obligations.StepKeepsHaltBugUndispatched
  intro s t h hs
  obtain ⟨u, v, rfl, -, hv, rfl⟩ := step_next_cases s t hs
  obtain ⟨hcpu, hreset⟩ : s.applyInputs.HaltBugInv :=
    State.applyInputs_ind State.HaltBugInv s (fun _ e he => he.of_event e) (fun _ => h) h
  refine ⟨?_, ?_⟩
  · rw [State.advance_cpu]
    exact hcpu.of_cpuStep hv
  · rw [(State.advance_keeps _ v).2.2, cpuStep_params hv]
    exact hreset

end Sys2Proof.Machine

/-! The timer (61_timer.md) and OAM DMA (62_dma.md). -/

namespace Sys2Proof.Machine

/-! ### The timer, R353 to R357 -/

theorem timaTick_overflow {t : Timer} (h : t.tima = 0xFF) : timaTick t = ({ t with tima := t.tma }, true) := if_pos h

theorem timaTick_count {t : Timer} (h : t.tima ≠ 0xFF) : timaTick t = ({ t with tima := t.tima + 1 }, false) := if_neg h

/-- `TimaTick()` and the counter have nothing to do with each other. -/
theorem timaTick_div (t : Timer) (d : Word) :
    timaTick { t with div := d } = ({ (timaTick t).1 with div := d }, (timaTick t).2) := by
  unfold timaTick
  split <;> rfl

/-- The low bits of the counter count on by themselves. -/
theorem toNat_add_mod_two_pow (d : Word) (n : Nat) {k : Nat} (hk : k ≤ 16) :
    (d + BitVec.ofNat 16 n).toNat % 2 ^ k = (d.toNat % 2 ^ k + n) % 2 ^ k := by
  rw [BitVec.toNat_add, BitVec.toNat_ofNat, Nat.add_mod_mod, Nat.mod_mod_of_dvd _ (Nat.pow_dvd_pow 2 hk),
    Nat.mod_add_mod]

section
variable {t : Timer} {b : Nat} (he : timerEnabled t.tac = true) (hs : selectedBit t.tac = b)
  (hb : b = 9 ∨ b = 3 ∨ b = 5 ∨ b = 7)
include he hs hb

/-- The cycle in which the low bits of the counter all fall. -/
theorem timerRun_tick (h : t.div.toNat % 2 ^ (b + 1) = 2 ^ (b + 1) - 1) :
    timerRun 1 (t, false) = timaTick { t with div := t.div + 1 } := by
  simp only [timerRun, Bool.false_or]
  rw [timerCycle_of_bit t b he hs hb, if_pos h]

/-- R356: a period is quiet cycles up to the one that ticks, and quiet cycles after it. -/
theorem timerRun_period :
    timerRun (2 ^ (b + 1)) (t, false) = timaTick { t with div := t.div + BitVec.ofNat 16 (2 ^ (b + 1)) } := by
  have hk : b + 1 ≤ 16 := by omega
  obtain ⟨low, hlow⟩ : ∃ low, t.div.toNat % 2 ^ (b + 1) = low := ⟨_, rfl⟩
  have hlt : low < 2 ^ (b + 1) := hlow ▸ Nat.mod_lt _ (Nat.two_pow_pos _)
  obtain ⟨before, hbefore⟩ : ∃ before, low + before = 2 ^ (b + 1) - 1 := ⟨2 ^ (b + 1) - 1 - low, by omega⟩
  obtain ⟨u, hu⟩ : ∃ u : Timer, u = { t with div := t.div + BitVec.ofNat 16 before } := ⟨_, rfl⟩
  have toTick : timerRun before (t, false) = (u, false) := hu ▸ run_quiet before b t false he hs hb (by omega)
  have tick : timerRun 1 (u, false) = timaTick { t with div := u.div + 1 } := by
    subst hu
    refine timerRun_tick he hs hb ?_
    rw [toNat_add_mod_two_pow _ _ hk, hlow, hbefore, Nat.mod_eq_of_lt (by omega)]
  have hfall : u.div + 1 = t.div + BitVec.ofNat 16 (before + 1) := by
    rw [hu, BitVec.ofNat_add, ← BitVec.add_assoc]
    rfl
  have hlow' : (u.div + 1).toNat % 2 ^ (b + 1) = 0 := by
    rw [hfall, toNat_add_mod_two_pow _ _ hk, hlow, show low + (before + 1) = 2 ^ (b + 1) by omega, Nat.mod_self]
  have afterTick (r : Bool) : timerRun low ({ (timaTick t).1 with div := u.div + 1 }, r) =
      ({ (timaTick t).1 with div := u.div + 1 + BitVec.ofNat 16 low }, r) := by
    have keeps := (timaTick_keeps t).2.1
    refine run_quiet low b _ r (by rw [keeps]; exact he) (by rw [keeps]; exact hs) hb ?_
    rw [hlow', Nat.zero_add]
    exact hlt
  have hsum : 2 ^ (b + 1) = before + (1 + low) := by omega
  have hdiv : t.div + BitVec.ofNat 16 (2 ^ (b + 1)) = u.div + 1 + BitVec.ofNat 16 low := by
    rw [hfall, BitVec.add_assoc, ← BitVec.ofNat_add, hsum, Nat.add_assoc]
  rw [timaTick_div, hdiv, hsum, timerRun_add, toTick, timerRun_add, tick, timaTick_div, afterTick]

end

/-- R353, R356: the period of a select is that of the bit it selects. -/
theorem timerSelect_spec : ∀ sel period : Nat,
    (sel, period) ∈ ([(0, 1024), (1, 16), (2, 64), (3, 256)] : List (Nat × Nat)) →
    timerEnabled (BitVec.ofNat 3 (4 + sel)) = true ∧ period = 2 ^ (selectedBit (BitVec.ofNat 3 (4 + sel)) + 1) := by
  intro sel period h
  simp only [List.mem_cons, Prod.mk.injEq, List.not_mem_nil, or_false] at h
  obtain ⟨rfl, rfl⟩ | ⟨rfl, rfl⟩ | ⟨rfl, rfl⟩ | ⟨rfl, rfl⟩ := h <;> exact ⟨by decide, by decide⟩

theorem selectedBit_cases : ∀ tac : BitVec 3,
    selectedBit tac = 9 ∨ selectedBit tac = 3 ∨ selectedBit tac = 5 ∨ selectedBit tac = 7 := by decide

/-- Settles O45: the four periods are those of the selected bits, and `timerRun_period` is one `TimaTick()`. -/
theorem oneTickPerPeriod : Obligations.OneTickPerPeriod := by
  unfold Obligations.OneTickPerPeriod
  intro t sel period hsel htac
  obtain ⟨he, rfl⟩ := timerSelect_spec sel period hsel
  rw [← htac] at he ⊢
  exact timerRun_period he rfl (selectedBit_cases _)

/-- R353: the selected bit and the enable bit, in the integers. -/
theorem timerBits_spec : ∀ tac : BitVec 3, timerEnabled tac = decide (4 ≤ tac.toNat) ∧
    selectedBit tac = ([9, 3, 5, 7] : List Nat).getD (tac.toNat % 4) 0 := by decide

/-- Settles O46: `divWrite` ticks on the bit that falls with the counter. -/
theorem divWriteGlitch : Obligations.DivWriteGlitch := by
  unfold Obligations.DivWriteGlitch
  intro s v hd bitNo ticks
  obtain ⟨he, hsel⟩ := timerBits_spec s.timer.tac
  have hticks : (timerEnabled s.timer.tac && s.timer.div.getLsbD (selectedBit s.timer.tac)) = ticks := by rw [he, hsel]
  rw [s.memWrite_io hd _ _ ownerOf_div]
  simp only [ioWrite, divWrite, hticks]
  clear_value ticks
  cases ticks
  case false => simp [requestIf]
  case true =>
    simp only [if_true, true_and]
    by_cases hov : s.timer.tima = 0xFF
    · rw [timaTick_div, timaTick_overflow hov, if_pos hov, if_pos hov]
      rfl
    · rw [timaTick_div, timaTick_count hov, if_neg hov, if_neg hov]
      simp [requestIf]

/-! ### The blocking of OAM DMA, R373, R374 -/

/-- Settles O37: with the transfer on only HRAM is open, and HRAM always is. -/
theorem dmaLeavesOnlyHighRam : Obligations.DmaLeavesOnlyHighRam := by
  unfold Obligations.DmaLeavesOnlyHighRam
  intro s a
  refine ⟨fun hd hout => ?_, fun h1 h2 => ?_⟩
  · have hb : s.isBlocked a = true := State.isBlocked_of_dma hd fun off ho =>
      hout ⟨(ownerOf_eq_hram ho).1, (ownerOf_eq_hram ho).2.1⟩
    exact ⟨State.memRead_blocked hb, State.memWrite_blocked hb⟩
  · have ho := ownerOf_hram h1 h2
    have hb : s.isBlocked a = false := by rw [State.isBlocked, ho]
    exact ⟨fun k => by rw [State.memRead_open hb, State.rawRead, ho],
      fun v => by rw [State.memWrite_open hb, State.rawWrite, ho]⟩

/-! ### The copy, R371, R372 -/

/-- R371: the source address in the integers. -/
theorem dmaSource_eq (v : Byte) {k : Nat} (hk : k < 160) : dmaSource v k = BitVec.ofNat 16 (256 * v.toNat + k) := by
  apply BitVec.eq_of_toNat_eq
  rw [dmaSource, toNat_joinBytes, BitVec.toNat_ofNat, BitVec.toNat_ofNat]
  omega

/-- Settles O47: the copy is made by `oamCopy`, whose cells are `oamCopy_read`. -/
theorem dmaTrigger : Obligations.DmaTrigger := by
  unfold Obligations.DmaTrigger
  intro s v hd hinv
  have hoam : s.oam.wf = true := by
    obtain ⟨hmem, -⟩ := hinv
    simp only [State.memWf, Bool.and_eq_true] at hmem
    obtain ⟨⟨⟨⟨-, hoam⟩, -⟩, -⟩, -⟩ := hmem
    exact hoam
  obtain ⟨hcopied, hkept⟩ := oamCopy_read { s with dma := { s.dma with page := v } } v hoam
  rw [s.memWrite_io hd _ _ ownerOf_dma]
  refine ⟨rfl, fun k hk => ?_, hkept⟩
  rw [← dmaSource_eq v hk]
  exact hcopied k hk

/-! ### The countdown, R373 -/

/-- R373: the flag goes off with the end of the countdown. -/
theorem Dma.Inv.advance {m : Nat} {d : Dma} (h : d.Inv m) (n : Nat) : (dmaAdvance n d).Inv m := by
  obtain ⟨hle, hblocked⟩ := h
  unfold dmaAdvance
  split
  next => exact ⟨hle, hblocked⟩
  next h0 =>
    refine ⟨by change d.remaining - n ≤ m; omega, ?_⟩
    by_cases hn : d.remaining - n = 0
    · simp [hn]
    · simp [hn, hblocked, h0]

theorem State.advance_dma (n : Nat) (s : State) : (s.advance n).dma = Machine.dmaAdvance n s.dma := by
  obtain ⟨p, q, e⟩ := State.ppuAdvance_blocks n s
  unfold State.advance
  rw [e]
  rfl

theorem dmaInv_blockInvariant : BlockInvariant State.DmaInv where
  cpu _ _ _ h := h
  ifReg _ _ h := h
  store s a v h := by
    obtain ⟨hpos, hdma, hreset⟩ := h
    unfold State.DmaInv
    rw [State.memWrite_params]
    refine ⟨hpos, ?_, hreset⟩
    obtain hkeep | hstart := s.memWrite_dma a v
    · rw [hkeep]
      exact hdma
    · rw [hstart]
      exact ⟨Nat.le_refl _, iff_of_true rfl (Nat.ne_of_gt hpos)⟩
  inputs _ _ h := h
  event s e h := by
    cases e
    case reset =>
      obtain ⟨hpos, -, hreset⟩ := h
      exact ⟨hpos, hreset, hreset⟩
    all_goals exact h
  advance s n h := by
    obtain ⟨hpos, hdma, hreset⟩ := h
    unfold State.DmaInv
    rw [State.advance_dma, (State.advance_keeps n s).2.2]
    exact ⟨hpos, hdma.advance n, hreset⟩

/-- Settles O57: the flag is set by a trigger alone and cleared at the countdown's end. -/
theorem stepKeepsDmaWindow : Obligations.StepKeepsDmaWindow := by
  unfold Obligations.StepKeepsDmaWindow
  exact fun _ _ h hs => dmaInv_blockInvariant.of_step h hs

end Sys2Proof.Machine

/-! The PPU's place in the frame (63_ppu.md): what one dot can do, said once by `DotStep`; from it what every dot does to the
place, the mode, LY, the requests and the STAT line. -/

namespace Sys2Proof.Machine

/-! ### What one dot can do, R389, R394, R395 -/

/-- R395: the next line begins, LY with it. -/
def Ppu.nextLine (p : Ppu) : Ppu := setLy (BitVec.ofNat 8 (p.line + 1)) { p with lineDot := 0, line := p.line + 1 }

/-- R395: line 0 begins again. -/
def Ppu.nextFrame (p : Ppu) : Ppu :=
  startVisibleLine { p with lineDot := 0, line := 0, windowLine := 0, wyLatch := false }

/-- The transitions of a dot, `lineDot` already counted on: the PPU after it and whether V-Blank is requested. -/
inductive DotStep (pr : Params) (vram oam : Memory) (p : Ppu) : Ppu → Bool → Prop
  | scanEnds (hl : p.line ≤ 143) (hd : p.lineDot = 80) :
    DotStep pr vram oam p { p with mode3Len := computeMode3 pr oam p, mode := .transfer } false
  | transferEnds (hl : p.line ≤ 143) (hd : p.lineDot = 80 + p.mode3Len) :
    DotStep pr vram oam p { renderLine pr vram oam p with mode := .hblank } false
  | lyZeroed (hl : p.line = 153) (hd : p.lineDot = 4) : DotStep pr vram oam p (setLy 0 p) false
  | visibleLine (hl : p.line < 143) (hd : p.lineDot = 456) : DotStep pr vram oam p (startVisibleLine p.nextLine) false
  | vblank (hl : p.line = 143) (hd : p.lineDot = 456) :
    DotStep pr vram oam p { p.nextLine with mode := .vblank, frameComplete := true } true
  | vblankLine (hl : 144 ≤ p.line) (hn : p.line ≠ 153) (hd : p.lineDot = 456) : DotStep pr vram oam p p.nextLine false
  | frame (hl : p.line = 153) (hd : p.lineDot = 456) : DotStep pr vram oam p p.nextFrame false
  | quiet (hv : p.line ≤ 143 → p.lineDot ≠ 80 ∧ p.lineDot ≠ 80 + p.mode3Len) (hz : p.line = 153 → p.lineDot ≠ 4)
      (hd : p.lineDot ≠ 456) : DotStep pr vram oam p p false

variable {pr : Params} {vram oam : Memory} {p q : Ppu} {vb : Bool}

theorem endOfLine_eq (p : Ppu) : endOfLine p =
    if p.line = 153 then (p.nextFrame, false)
    else if p.line + 1 = 144 then ({ p.nextLine with mode := .vblank, frameComplete := true }, true)
    else if p.line + 1 ≤ 143 then (startVisibleLine p.nextLine, false)
    else (p.nextLine, false) := rfl

theorem DotStep.of_endOfLine (hd : p.lineDot = 456) : DotStep pr vram oam p (endOfLine p).1 (endOfLine p).2 := by
  rw [endOfLine_eq]
  split_ifs with h153 h144 hv
  · exact .frame h153 hd
  · exact .vblank (by omega) hd
  · exact .visibleLine (by omega) hd
  · exact .vblankLine (by omega) h153 hd

/-- Every dot is one of these. -/
theorem dotTransition_step (pr : Params) (vram oam : Memory) (p : Ppu) :
    DotStep pr vram oam p (dotTransition pr vram oam p).1 (dotTransition pr vram oam p).2 := by
  unfold dotTransition
  split
  next hl =>
    split
    next hd => exact .scanEnds hl hd
    next h80 =>
      split
      next hd => exact .transferEnds hl hd
      next hm =>
        split
        next hd => exact .of_endOfLine hd
        next hd => exact .quiet (fun _ => ⟨h80, hm⟩) (by omega) hd
  next hl =>
    by_cases hz : p.line = 153 ∧ p.lineDot = 4
    · have hd : (setLy 0 p).lineDot ≠ 456 := by
        change p.lineDot ≠ 456
        omega
      simp only [if_pos hz, if_neg hd]
      exact .lyZeroed hz.1 hz.2
    · simp only [if_neg hz]
      split
      next hd => exact .of_endOfLine hd
      next hd => exact .quiet (fun h => absurd h hl) (fun h h4 => hz ⟨h, h4⟩) hd

/-! ### The place in the frame, R387, R391, R396 -/

/-- R387: the mode of a place. -/
def modeAt (line dot len : Nat) : PpuMode :=
  if 144 ≤ line then .vblank
  else if dot < 80 then .oamScan
  else if dot < 80 + len then .transfer
  else .hblank

/-- R391, R396: LY at a place. -/
def lyAt (line dot : Nat) : Byte := if line = 153 ∧ 4 ≤ dot then 0 else BitVec.ofNat 8 line

section
variable {line dot len : Nat}

theorem modeAt_vblank (hl : 144 ≤ line) : modeAt line dot len = .vblank := if_pos hl

theorem modeAt_oamScan (hl : line < 144) (hd : dot < 80) : modeAt line dot len = .oamScan := by
  rw [modeAt, if_neg (by omega), if_pos hd]

theorem modeAt_transfer (hl : line < 144) (h80 : 80 ≤ dot) (hd : dot < 80 + len) :
    modeAt line dot len = .transfer := by
  rw [modeAt, if_neg (by omega), if_neg (by omega), if_pos hd]

theorem modeAt_hblank (hl : line < 144) (hd : 80 + len ≤ dot) : modeAt line dot len = .hblank := by
  rw [modeAt, if_neg (by omega), if_neg (by omega), if_neg (by omega)]

/-- Between its two changes in a visible line the mode stays. -/
theorem modeAt_succ (hv : line ≤ 143 → dot + 1 ≠ 80 ∧ dot + 1 ≠ 80 + len) :
    modeAt line (dot + 1) len = modeAt line dot len := by
  by_cases hl : 144 ≤ line
  · rw [modeAt_vblank hl, modeAt_vblank hl]
  · have scan : dot + 1 < 80 ↔ dot < 80 := by omega
    have transfer : dot + 1 < 80 + len ↔ dot < 80 + len := by omega
    simp only [modeAt, scan, transfer]

theorem lyAt_line (h : ¬(line = 153 ∧ 4 ≤ dot)) : lyAt line dot = BitVec.ofNat 8 line := if_neg h

theorem lyAt_last (hl : line = 153) (hd : 4 ≤ dot) : lyAt line dot = 0 := if_pos ⟨hl, hd⟩

/-- R396: LY changes within line 153 alone, at dot 4. -/
theorem lyAt_succ (hz : line = 153 → dot + 1 ≠ 4) : lyAt line (dot + 1) = lyAt line dot := by
  have late : line = 153 ∧ 4 ≤ dot + 1 ↔ line = 153 ∧ 4 ≤ dot := by omega
  simp only [lyAt, late]

end

/-- The part of `Ppu.Inv` that speaks of the PPU with the LCD on: a place in the frame, and the mode and LY of it. -/
structure Located (line dot len : Nat) (mode : PpuMode) (ly : Byte) : Prop where
  dot_lt : dot < 456
  line_lt : line < 154
  len_range : 172 ≤ len ∧ len ≤ 289
  mode_eq : mode = modeAt line dot len
  ly_eq : ly = lyAt line dot

/-- A PPU so located. -/
def Ppu.InPlace (p : Ppu) : Prop := Located p.line p.lineDot p.mode3Len p.mode p.ly

theorem Ppu.inv_iff_inPlace (hon : lcdOn p = true) : p.Inv ↔ p.InPlace := by
  constructor
  · rintro ⟨hdot, hline, hge, hle, -, hplace⟩
    exact ⟨hdot, hline, ⟨hge, hle⟩, (hplace hon).1, (hplace hon).2⟩
  · rintro ⟨hdot, hline, ⟨hge, hle⟩, hmode, hly⟩
    exact ⟨hdot, hline, hge, hle, fun hoff => absurd hon (by simp [hoff]), fun _ => ⟨hmode, hly⟩⟩

/-- The count of a dot, before its transitions. -/
def Ppu.counted (p : Ppu) : Ppu := { p with lineDot := p.lineDot + 1 }

@[simp] theorem Ppu.counted_line (p : Ppu) : p.counted.line = p.line := rfl
@[simp] theorem Ppu.counted_lineDot (p : Ppu) : p.counted.lineDot = p.lineDot + 1 := rfl
@[simp] theorem Ppu.counted_mode3Len (p : Ppu) : p.counted.mode3Len = p.mode3Len := rfl

/-- R387, R391, R396: the transitions of a dot put the mode and LY in step with the place again. -/
theorem Ppu.InPlace.dotStep (h : p.InPlace) (hs : DotStep pr vram oam p.counted q vb) : q.InPlace := by
  obtain ⟨hdot, hline, hlen, hmode, hly⟩ := h
  cases hs with
  | scanEnds hl hd =>
    simp only [counted_line, counted_lineDot] at hl hd
    change Located p.line (p.lineDot + 1) (computeMode3 pr oam p.counted) .transfer p.ly
    have hm := computeMode3_range pr oam p.counted
    exact ⟨by omega, hline, hm, (modeAt_transfer (by omega) (by omega) (by omega)).symm,
      hly.trans (lyAt_succ (by omega)).symm⟩
  | transferEnds hl hd =>
    simp only [counted_line, counted_lineDot, counted_mode3Len] at hl hd
    change Located p.line (p.lineDot + 1) p.mode3Len .hblank p.ly
    exact ⟨by omega, hline, hlen, (modeAt_hblank (by omega) (by omega)).symm, hly.trans (lyAt_succ (by omega)).symm⟩
  | lyZeroed hl hd =>
    simp only [counted_line, counted_lineDot] at hl hd
    change Located p.line (p.lineDot + 1) p.mode3Len p.mode 0
    exact ⟨by omega, hline, hlen, hmode.trans (modeAt_succ (by omega)).symm, (lyAt_last hl (by omega)).symm⟩
  | visibleLine hl hd =>
    simp only [counted_line] at hl
    change Located (p.line + 1) 0 p.mode3Len .oamScan (BitVec.ofNat 8 (p.line + 1))
    exact ⟨by omega, by omega, hlen, (modeAt_oamScan (by omega) (by omega)).symm, (lyAt_line (by omega)).symm⟩
  | vblank hl hd =>
    simp only [counted_line] at hl
    change Located (p.line + 1) 0 p.mode3Len .vblank (BitVec.ofNat 8 (p.line + 1))
    exact ⟨by omega, by omega, hlen, (modeAt_vblank (by omega)).symm, (lyAt_line (by omega)).symm⟩
  | vblankLine hl hn hd =>
    simp only [counted_line] at hl hn
    change Located (p.line + 1) 0 p.mode3Len p.mode (BitVec.ofNat 8 (p.line + 1))
    rw [modeAt_vblank hl] at hmode
    exact ⟨by omega, by omega, hlen, hmode.trans (modeAt_vblank (by omega)).symm, (lyAt_line (by omega)).symm⟩
  | frame hl hd =>
    simp only [counted_line, counted_lineDot] at hl hd
    change Located 0 0 p.mode3Len .oamScan p.ly
    rw [lyAt_last hl (by omega)] at hly
    exact ⟨by omega, by omega, hlen, (modeAt_oamScan (by omega) (by omega)).symm, hly⟩
  | quiet hv hz hd =>
    simp only [counted_line, counted_lineDot, counted_mode3Len] at hv hz hd
    exact ⟨Nat.lt_of_le_of_ne hdot hd, hline, hlen, hmode.trans (modeAt_succ hv).symm, hly.trans (lyAt_succ hz).symm⟩

/-! ### One dot with the STAT line, R389, R400 -/

/-- `PpuDot()` is the transitions and then `UpdateStatLine()`. -/
theorem ppuDot_step (pr : Params) (vram oam : Memory) (p : Ppu) : ∃ q vb,
    DotStep pr vram oam p.counted q vb ∧ ppuDot pr vram oam p =
      ({ q with statLine := statLevel q, lycPulse := false }, dotRequests vb (!q.statLine && statLevel q)) :=
  ⟨_, _, dotTransition_step pr vram oam p.counted, rfl⟩

/-- The registers no dot writes. -/
theorem DotStep.keeps (hs : DotStep pr vram oam p q vb) :
    q.lcdc = p.lcdc ∧ q.statEn = p.statEn ∧ q.lyc = p.lyc ∧ q.statLine = p.statLine := by
  cases hs <;> exact ⟨rfl, rfl, rfl, rfl⟩

theorem ppuDot_lcdOn (pr : Params) (vram oam : Memory) (p : Ppu) : lcdOn (ppuDot pr vram oam p).1 = lcdOn p := by
  obtain ⟨q, vb, hs, hr⟩ := ppuDot_step pr vram oam p
  rw [hr, lcdOn, hs.keeps.1]
  rfl

theorem Ppu.InPlace.ppuDot (h : p.InPlace) (pr : Params) (vram oam : Memory) : (ppuDot pr vram oam p).1.InPlace := by
  obtain ⟨q, vb, hs, hr⟩ := ppuDot_step pr vram oam p
  rw [hr]
  have hq : q.InPlace := h.dotStep hs
  exact hq

/-- R388: any number of dots. -/
theorem ppuRun_inPlace (pr : Params) (vram oam : Memory) (n : Nat) (x : Ppu × BitVec 5) (hon : lcdOn x.1 = true)
    (h : x.1.InPlace) : lcdOn (ppuRun pr vram oam n x).1 = true ∧ (ppuRun pr vram oam n x).1.InPlace := by
  induction n generalizing x with
  | zero => exact ⟨hon, h⟩
  | succ n ih => exact ih _ ((ppuDot_lcdOn pr vram oam x.1).trans hon) (h.ppuDot pr vram oam)

/-! ### Stores to the PPU's registers, R398, R399 -/

theorem lcdcWrite_off {v : Byte} (hp : lcdOn p = true) (hv : v.getLsbD 7 = false) :
    lcdcWrite v p = lcdTurnOff { p with lcdc := v } := by
  simp only [lcdcWrite, hp, hv, Bool.not_false, Bool.and_self, if_true]

theorem lcdcWrite_on {v : Byte} (hp : lcdOn p = false) (hv : v.getLsbD 7 = true) :
    lcdcWrite v p = lcdTurnOn { p with lcdc := v } := by
  simp [lcdcWrite, hp, hv]

theorem lcdcWrite_same {v : Byte} (h : lcdOn p = v.getLsbD 7) : lcdcWrite v p = { p with lcdc := v } := by
  simp only [lcdcWrite, h, Bool.and_not_self, Bool.not_and_self, Bool.false_eq_true, if_false]

/-- R398, R399: turning the LCD off or on puts the PPU at the start of the frame; any other byte leaves the place. -/
theorem Ppu.Inv.lcdcWrite (h : p.Inv) (v : Byte) : (lcdcWrite v p).Inv := by
  obtain ⟨hdot, hline, hge, hle, hoff, hon⟩ := h
  cases hv : v.getLsbD 7 <;> cases hp : lcdOn p
  case false.true =>
    have hq : lcdOn (lcdTurnOff { p with lcdc := v }) = false := hv
    rw [lcdcWrite_off hp hv]
    exact ⟨Nat.zero_lt_succ _, Nat.zero_lt_succ _, hge, hle, fun _ => ⟨rfl, rfl, rfl, rfl⟩,
      fun ht => nomatch hq.symm.trans ht⟩
  case true.false =>
    have hq : lcdOn (lcdTurnOn { p with lcdc := v }) = true := hv
    rw [lcdcWrite_on hp hv, Ppu.inv_iff_inPlace hq]
    change Located 0 0 p.mode3Len .oamScan 0
    exact ⟨by decide, by decide, ⟨hge, hle⟩, rfl, rfl⟩
  all_goals
    have hq : lcdOn { p with lcdc := v } = lcdOn p := hv.trans hp.symm
    rw [lcdcWrite_same (hp.trans hv.symm)]
    exact ⟨hdot, hline, hge, hle, fun h => hoff (hq.symm.trans h), fun h => hon (hq.symm.trans h)⟩

/-- `q` is `p` but for the registers that have no say in its place. -/
def Ppu.SamePlace (p q : Ppu) : Prop :=
  q = { p with
    statEn := q.statEn, scy := q.scy, scx := q.scx, lyc := q.lyc, bgp := q.bgp, obp0 := q.obp0, obp1 := q.obp1
    wy := q.wy, wx := q.wx }

theorem Ppu.Inv.of_samePlace (h : p.Inv) (hs : p.SamePlace q) : q.Inv := by
  rw [hs]
  exact h

/-- R71: a store writes LCDC, or at most such registers. -/
theorem State.memWrite_ppu (s : State) (a : Word) (v : Byte) :
    (s.memWrite a v).ppu = lcdcWrite v s.ppu ∨ s.ppu.SamePlace (s.memWrite a v).ppu := by
  unfold State.memWrite
  split
  · exact .inr rfl
  · unfold State.rawWrite
    split
    case h_7 r _ =>
      cases r
      case lcdc => exact .inl rfl
      all_goals exact .inr rfl
    all_goals exact .inr rfl

/-! ### The invariant of the PPU -/

/-- R388: nothing with the LCD off; else as many dots as there were cycles. -/
theorem State.ppuAdvance_inv {s : State} (h : s.ppu.Inv) (n : Nat) : (s.ppuAdvance n).ppu.Inv := by
  unfold State.ppuAdvance
  split
  next hon =>
    obtain ⟨hon', hplace⟩ :=
      ppuRun_inPlace s.params s.vram s.oam n (s.ppu, 0) hon ((Ppu.inv_iff_inPlace hon).mp h)
    exact (Ppu.inv_iff_inPlace hon').mpr hplace
  next => exact h

theorem State.advance_ppu (n : Nat) (s : State) : (s.advance n).ppu = (s.ppuAdvance n).ppu := rfl

theorem ppuInv_blockInvariant : BlockInvariant State.PpuInv where
  cpu _ _ _ h := h
  ifReg _ _ h := h
  store s a v h := by
    obtain ⟨hppu, hreset⟩ := h
    refine ⟨?_, by rw [State.memWrite_params]; exact hreset⟩
    obtain hlcdc | hsame := s.memWrite_ppu a v
    · rw [hlcdc]
      exact hppu.lcdcWrite v
    · exact hppu.of_samePlace hsame
  inputs _ _ h := h
  event s e h := by
    cases e
    case reset => exact ⟨h.2, h.2⟩
    all_goals exact h
  advance s n h := by
    refine ⟨?_, by rw [(State.advance_keeps n s).2.2]; exact h.2⟩
    rw [State.advance_ppu]
    exact State.ppuAdvance_inv h.1 n

/-- Settles O58: dots keep the mode and LY in step with the place, stores turn the LCD off or on at place 0 or leave the
place, and a host reset takes the reset values. -/
theorem stepKeepsPpuPlace : Obligations.StepKeepsPpuPlace := by
  unfold Obligations.StepKeepsPpuPlace
  exact fun _ _ h hs => ppuInv_blockInvariant.of_step h hs

/-! ### What one dot requests and shows, R389, R394, R397, R400 -/

/-- R387, R395: a dot stays in the line, or ends it at 456. -/
theorem DotStep.line_lineDot (hs : DotStep pr vram oam p q vb) (hlen : p.mode3Len ≤ 289) :
    (p.lineDot ≠ 456 ∧ q.line = p.line ∧ q.lineDot = p.lineDot) ∨
      (p.lineDot = 456 ∧ q.line = (if p.line = 153 then 0 else p.line + 1) ∧ q.lineDot = 0) := by
  cases hs with
  | scanEnds hl hd => exact .inl ⟨by omega, rfl, rfl⟩
  | transferEnds hl hd => exact .inl ⟨by omega, rfl, rfl⟩
  | lyZeroed hl hd => exact .inl ⟨by omega, rfl, rfl⟩
  | visibleLine hl hd => exact .inr ⟨hd, (if_neg (by omega)).symm, rfl⟩
  | vblank hl hd => exact .inr ⟨hd, (if_neg (by omega)).symm, rfl⟩
  | vblankLine hl hn hd => exact .inr ⟨hd, (if_neg hn).symm, rfl⟩
  | frame hl hd => exact .inr ⟨hd, (if_pos hl).symm, rfl⟩
  | quiet hv hz hd => exact .inl ⟨hd, rfl, rfl⟩

/-- R387: one place further, modulo the 154 · 456 dots of a frame. -/
theorem DotStep.place (h : p.InPlace) (hs : DotStep pr vram oam p.counted q vb) :
    456 * q.line + q.lineDot = (456 * p.line + p.lineDot + 1) % 70224 := by
  have hdot := h.dot_lt
  have hline := h.line_lt
  obtain ⟨hn, hql, hqd⟩ | ⟨hd, hql, hqd⟩ := hs.line_lineDot h.len_range.2
  · rw [Ppu.counted_lineDot] at hn hqd
    rw [hql, hqd, Ppu.counted_line]
    omega
  · rw [Ppu.counted_lineDot] at hd
    rw [hql, hqd, Ppu.counted_line]
    split <;> omega

/-- R394: V-Blank is requested at the end of line 143, which is the dot that marks the frame complete. -/
theorem DotStep.vblank_iff (hs : DotStep pr vram oam p q vb) (hlen : p.mode3Len ≤ 289) :
    (vb = true ↔ p.line = 143 ∧ p.lineDot = 456) ∧ q.frameComplete = (p.frameComplete || vb) := by
  cases hs with
  | vblank hl hd => exact ⟨by simp [hl, hd], (Bool.or_true _).symm⟩
  | _ => exact ⟨iff_of_false Bool.false_ne_true (by omega), (Bool.or_false _).symm⟩

/-- R394, by the place the dot reaches. -/
theorem DotStep.vblank_iff_place (h : p.InPlace) (hs : DotStep pr vram oam p.counted q vb) :
    vb = true ↔ 456 * q.line + q.lineDot = 456 * 144 := by
  have hdot := h.dot_lt
  have hline := h.line_lt
  rw [(hs.vblank_iff h.len_range.2).1, hs.place h, Ppu.counted_line, Ppu.counted_lineDot]
  omega

/-- Settles O49: `DotStep.place`, `DotStep.vblank_iff_place` and `DotStep.vblank_iff` of the dot's transitions. -/
theorem ppuPlaceAndVBlank : Obligations.PpuPlaceAndVBlank := by
  unfold Obligations.PpuPlaceAndVBlank
  intro pr vram oam p hinv hon
  have h := (Ppu.inv_iff_inPlace hon).mp hinv
  obtain ⟨q, vb, hs, hr⟩ := ppuDot_step pr vram oam p
  simp only [hr, (dotRequests_bits _ _).1]
  refine ⟨hs.place h, hs.vblank_iff_place h, ?_⟩
  rw [(hs.vblank_iff h.len_range.2).2, Bool.or_eq_true]
  rfl

/-- R391, R402: at the end of a line but the last LY gets a new value. -/
theorem Ppu.InPlace.next_ly_ne (h : p.InPlace) (hl : p.line ≠ 153) : BitVec.ofNat 8 (p.line + 1) ≠ p.ly := by
  have hline := h.line_lt
  rw [h.ly_eq, lyAt_line (by omega)]
  intro e
  have := congrArg BitVec.toNat e
  simp only [BitVec.toNat_ofNat] at this
  omega

/-- R389, R402: a dot leaves LY and the pulse, or changes LY and computes the pulse from the new value. -/
theorem DotStep.ly (h : p.InPlace) (hs : DotStep pr vram oam p.counted q vb) :
    (q.ly = p.ly ∧ q.lycPulse = p.lycPulse) ∨ (q.ly ≠ p.ly ∧ q.lycPulse = (q.ly == p.lyc)) := by
  cases hs with
  | scanEnds hl hd => exact .inl ⟨rfl, rfl⟩
  | transferEnds hl hd => exact .inl ⟨rfl, rfl⟩
  | lyZeroed hl hd =>
    rw [Ppu.counted_line] at hl
    rw [Ppu.counted_lineDot] at hd
    have hly : p.ly = 153 := by rw [h.ly_eq, lyAt_line (by omega), hl]; rfl
    have hne : 0 ≠ p.ly := by rw [hly]; decide
    exact .inr ⟨hne, rfl⟩
  | visibleLine hl hd =>
    rw [Ppu.counted_line] at hl
    exact .inr ⟨h.next_ly_ne (by omega), rfl⟩
  | vblank hl hd =>
    rw [Ppu.counted_line] at hl
    exact .inr ⟨h.next_ly_ne (by omega), rfl⟩
  | vblankLine hl hn hd => exact .inr ⟨h.next_ly_ne hn, rfl⟩
  | frame hl hd => exact .inl ⟨rfl, rfl⟩
  | quiet hv hz hd => exact .inl ⟨rfl, rfl⟩

/-- R402: the pulse is on exactly when LY has become LYC, or stays and the LCD has just come on with the pulse. -/
theorem DotStep.lycPulse_iff (h : p.InPlace) (hs : DotStep pr vram oam p.counted q vb) :
    q.lycPulse = true ↔ (q.ly ≠ p.ly ∧ q.ly = p.lyc) ∨ (q.ly = p.ly ∧ p.lycPulse = true) := by
  obtain ⟨hly, hpulse⟩ | ⟨hly, hpulse⟩ := hs.ly h
  · simp [hly, hpulse]
  · simp [hly, hpulse]

/-- Settles O50: `UpdateStatLine()` raises the request on the edge of `StatLevel()`, whose LY = LYC condition is
`DotStep.lycPulse_iff`, and ends the pulse. -/
theorem statLineEdges : Obligations.StatLineEdges := by
  unfold Obligations.StatLineEdges
  intro pr vram oam p hinv hon
  have h := (Ppu.inv_iff_inPlace hon).mp hinv
  obtain ⟨q, vb, hs, hr⟩ := ppuDot_step pr vram oam p
  obtain ⟨-, hstat, -, hline⟩ := hs.keeps
  simp only [hr, (dotRequests_bits _ _).2]
  refine ⟨?_, ?_, trivial⟩
  · rw [hline]
    simp [Ppu.counted]
  · rw [statLevel_iff, hs.lycPulse_iff h, hstat]
    rfl

/-! ### A write of LCDC, R398, R399 -/

/-- Settles O48: `lcdcWrite` by the old and the new bit 7. -/
theorem lcdOffAndOn : Obligations.LcdOffAndOn := by
  unfold Obligations.LcdOffAndOn
  intro s v hd
  rw [s.memWrite_io hd _ _ ownerOf_lcdc]
  refine ⟨rfl, fun hp hv => ?_, fun hp hv => ?_, fun h => lcdcWrite_same h⟩
  · exact lcdcWrite_off hp hv
  · exact lcdcWrite_on hp hv

end Sys2Proof.Machine

/-! The cartridge (64_cartridge.md): what no step changes, the bank registers, the two windows, and the clock. -/

namespace Sys2Proof.Machine

/-! ### What a launch fixes, R440, R478 -/

/-- `t` has the ROM image, the configuration and the parameters of `s`. -/
def State.SameLaunch (s t : State) : Prop :=
  t.cart.rom = s.cart.rom ∧ t.cart.config = s.cart.config ∧ t.params = s.params

theorem State.SameLaunch.trans {s t u : State} (h : s.SameLaunch t) (h' : t.SameLaunch u) : s.SameLaunch u :=
  ⟨h'.1.trans h.1, h'.2.1.trans h.2.1, h'.2.2.trans h.2.2⟩

theorem sameLaunch_blockInvariant (s : State) : BlockInvariant s.SameLaunch where
  cpu _ _ _ h := h
  ifReg _ _ h := h
  store t a v h := h.trans ⟨t.memWrite_rom a v, t.memWrite_config a v, t.memWrite_params a v⟩
  inputs _ _ h := h
  event t e h := h.trans (applyEvent_keeps t e)
  advance t n h := h.trans (t.advance_keeps n)

/-- Settles O39: stores, host events and advances leave ROM, the configuration and the parameters. -/
theorem romNeverChanges : Obligations.RomNeverChanges := by
  unfold Obligations.RomNeverChanges
  exact fun s _ hs => (sameLaunch_blockInvariant s).of_step ⟨rfl, rfl, rfl⟩ hs

/-! ### Bits of a byte in the integers -/

theorem byte_setWidth (v : Byte) (k : Nat) : v.setWidth k = BitVec.ofNat k (v.toNat % 2 ^ k) := by
  apply BitVec.eq_of_toNat_eq
  rw [BitVec.toNat_setWidth, BitVec.toNat_ofNat, Nat.mod_mod]

theorem byte_getLsbD (v : Byte) (i : Nat) : v.getLsbD i = (v.toNat / 2 ^ i % 2 == 1) := by
  rw [BitVec.getLsbD, Nat.testBit_eq_decide_div_mod_eq]
  rfl

theorem testBit_eight (n : Nat) : n.testBit 8 = true ↔ ¬ n / 256 % 2 = 0 := by
  rw [Nat.testBit_eq_decide_div_mod_eq]
  simp

/-! ### The bank registers, R451 to R475 -/

section
variable {s : State} {a : Word}

/-- A write to 0000 to 7FFF reaches the bank registers alone. -/
theorem State.memWrite_mapper (hd : s.dma.blocked = false) (ha : a.toNat < 0x8000) {v : Byte} {mp : Mapper}
    (h : (cartWrite s.cart a.toNat v).mapper = mp) :
    s.memWrite a v = { s with cart := { s.cart with mapper := mp } } := by
  rw [State.memWrite_rom_range hd ha, ← h]
  rfl

/-- The byte of ROM that a read of 0000 to 7FFF shows. -/
theorem State.memRead_romIndex (hd : s.dma.blocked = false) (ha : a.toNat < 0x8000) (k : Access) :
    s.memRead k a = s.cart.rom.read (cartRomIndex s.cart a.toNat) := State.memRead_rom_range hd ha k

end

theorem mbc1Write_spec (m : Mbc1) (addr : Nat) (v : Byte) : mbc1Write m addr v =
    if addr < 0x2000 then { m with ramEnable := v.toNat % 16 == 10 }
    else if addr < 0x4000 then { m with bank1 := BitVec.ofNat 5 (if v.toNat % 32 = 0 then 1 else v.toNat % 32) }
    else if addr < 0x6000 then { m with bank2 := BitVec.ofNat 2 (v.toNat % 4) }
    else { m with mode := v.toNat % 2 == 1 } := by
  rw [mbc1Write, ramEnableValue_spec, nonZeroBank5_spec, byte_setWidth v 2, byte_getLsbD, Nat.pow_zero, Nat.div_one]
  rfl

theorem mbc2Write_spec (m : Mbc2) (addr : Nat) (v : Byte) : mbc2Write m addr v =
    if addr < 0x4000 then
      if addr / 256 % 2 = 0 then { m with ramEnable := v.toNat % 16 == 10 }
      else { m with romBank := BitVec.ofNat 4 (if v.toNat % 16 = 0 then 1 else v.toNat % 16) }
    else m := by
  rw [mbc2Write, ramEnableValue_spec, nonZeroBank4_spec, ← ite_not (addr / 256 % 2 = 0)]
  simp only [testBit_eight]

/-- R461, R466: the clock is latched when the written bit goes from 0 to 1. -/
theorem mbc3_latch_spec (m : Mbc3) (n : Nat) :
    { m with latched := if !m.latchPrev && (n % 2 == 1) then m.live else m.latched, latchPrev := n % 2 == 1 } =
      if m.latchPrev = false ∧ n % 2 = 1 then { m with latched := m.live, latchPrev := true }
      else { m with latchPrev := n % 2 == 1 } := by
  by_cases h : m.latchPrev = false ∧ n % 2 = 1
  · rw [if_pos h]
    simp [h.1, h.2]
  · rw [if_neg h, if_neg (by simpa using h)]

theorem mbc3Write_spec (m : Mbc3) (addr : Nat) (v : Byte) : mbc3Write m addr v =
    if addr < 0x2000 then { m with ramEnable := v.toNat % 16 == 10 }
    else if addr < 0x4000 then { m with romBank := BitVec.ofNat 7 (if v.toNat % 128 = 0 then 1 else v.toNat % 128) }
    else if addr < 0x6000 then { m with ramSel := BitVec.ofNat 4 (v.toNat % 16) }
    else if m.latchPrev = false ∧ v.toNat % 2 = 1 then { m with latched := m.live, latchPrev := true }
    else { m with latchPrev := v.toNat % 2 == 1 } := by
  rw [mbc3Write, ramEnableValue_spec, nonZeroBank7_spec, byte_setWidth v 4, byte_getLsbD, Nat.pow_zero, Nat.div_one,
    mbc3_latch_spec]
  rfl

theorem toNat_append_bit (x : BitVec 1) (v : Byte) : x ++ v = BitVec.ofNat 9 (x.toNat * 256 + v.toNat) := by
  apply BitVec.eq_of_toNat_eq
  rw [BitVec.toNat_append, ← Nat.shiftLeft_add_eq_or_of_lt v.isLt, Nat.shiftLeft_eq, BitVec.toNat_ofNat]
  omega

/-- R472: bits 7:0 of the bank number. -/
theorem mbc5LowBank_spec (b : BitVec 9) (v : Byte) :
    b.extractLsb' 8 1 ++ v = BitVec.ofNat 9 (b.toNat / 256 * 256 + v.toNat) := by
  rw [toNat_append_bit, BitVec.extractLsb'_toNat, Nat.shiftRight_eq_div_pow]
  congr 3
  omega

/-- R472: bit 8 of the bank number. -/
theorem mbc5HighBank_spec (b : BitVec 9) (v : Byte) :
    v.extractLsb' 0 1 ++ b.extractLsb' 0 8 = BitVec.ofNat 9 (v.toNat % 2 * 256 + b.toNat % 256) := by
  rw [toNat_append_bit, BitVec.extractLsb'_toNat, BitVec.extractLsb'_toNat]
  rfl

theorem mbc5Write_spec (rumble : Bool) (m : Mbc5) (addr : Nat) (v : Byte) : mbc5Write rumble m addr v =
    if addr < 0x2000 then { m with ramEnable := v.toNat % 16 == 10 }
    else if addr < 0x3000 then { m with romBank := BitVec.ofNat 9 (m.romBank.toNat / 256 * 256 + v.toNat) }
    else if addr < 0x4000 then { m with romBank := BitVec.ofNat 9 (v.toNat % 2 * 256 + m.romBank.toNat % 256) }
    else if addr < 0x6000 then { m with ramBank := BitVec.ofNat 4 (if rumble then v.toNat % 8 else v.toNat % 16) }
    else m := by
  rw [mbc5Write, ramEnableValue_spec, mbc5RamBank_spec, mbc5LowBank_spec, mbc5HighBank_spec]

/-- R452: `bank2 << 5 | bank1` in the integers. -/
theorem mbc1Bank_spec (b2 : BitVec 2) (b1 : BitVec 5) : (b2.toNat <<< 5) ||| b1.toNat = 32 * b2.toNat + b1.toNat := by
  rw [← Nat.shiftLeft_add_eq_or_of_lt b1.isLt, Nat.shiftLeft_eq, Nat.mul_comm]

theorem romOffset_zero (c : Cart) (off : Nat) : romOffset c 0 off = off := by simp [romOffset]

/-- R456, R462, R473: bank 0 below 0x4000, the selected bank above. -/
theorem rom_read_banked (c : Cart) (bank addr : Nat) :
    c.rom.read (if addr < 0x4000 then romOffset c 0 addr else romOffset c bank (addr - 0x4000)) =
      if addr < 0x4000 then c.rom.read addr
      else c.rom.read (bank % c.config.romBanks * 0x4000 + (addr - 0x4000)) := by
  rw [apply_ite c.rom.read, romOffset_zero]
  rfl

/-- Settles O40: the registers by `mbc1Write_spec` and `mbc5Write_spec`, the windows by `cartRomIndex`. -/
theorem mbc1AndMbc5Banks : Obligations.Mbc1AndMbc5Banks := by
  unfold Obligations.Mbc1AndMbc5Banks
  intro s a v hd ha selected
  refine ⟨fun hm => ⟨?_, fun k => ?_⟩, fun m hm => ⟨?_, fun k => ?_⟩, fun m hm => ⟨?_, fun k => ?_⟩⟩
  · have kept : s.memWrite a v = { s with cart := { s.cart with mapper := .noMapper } } :=
      State.memWrite_mapper hd ha (by rw [cartWrite, hm])
    rw [kept, ← hm]
  · rw [State.memRead_romIndex hd ha, cartRomIndex, hm]
  · exact State.memWrite_mapper hd ha (by rw [← mbc1Write_spec, cartWrite, hm])
  · rw [State.memRead_romIndex hd ha, cartRomIndex, hm]
    simp only [mbc1Bank_spec]
    rw [apply_ite s.cart.rom.read, Nat.shiftLeft_eq, Nat.mul_comm]
    rfl
  · exact State.memWrite_mapper hd ha (by rw [← mbc5Write_spec, cartWrite, hm])
  · rw [State.memRead_romIndex hd ha, cartRomIndex, hm]
    exact rom_read_banked _ _ _

/-- Settles O41: the registers by `mbc2Write_spec` and `mbc3Write_spec`, the windows by `rom_read_banked`. -/
theorem mbc2AndMbc3Banks : Obligations.Mbc2AndMbc3Banks := by
  unfold Obligations.Mbc2AndMbc3Banks
  intro s a v hd ha selected
  refine ⟨fun m hm => ⟨?_, fun k => ?_⟩, fun m hm => ⟨?_, fun k => ?_⟩⟩
  · exact State.memWrite_mapper hd ha (by rw [← mbc2Write_spec, cartWrite, hm])
  · rw [State.memRead_romIndex hd ha, cartRomIndex, hm]
    exact rom_read_banked _ _ _
  · exact State.memWrite_mapper hd ha (by rw [← mbc3Write_spec, cartWrite, hm])
  · rw [State.memRead_romIndex hd ha, cartRomIndex, hm]
    exact rom_read_banked _ _ _

/-! ### The window A000 to BFFF, R444 to R474 -/

section
variable {s : State} {a : Word} (hd : s.dma.blocked = false) (h1 : 0xA000 ≤ a.toNat) (h2 : a.toNat ≤ 0xBFFF)
include hd h1 h2

theorem State.window_closed (ht : ramTarget s.cart (a.toNat - 0xA000) = .closed) (v : Byte) :
    (∀ k, s.memRead k a = 0xFF) ∧ s.memWrite a v = s :=
  ⟨fun k => by rw [State.memRead_eram_range hd h1 h2, cartReadRam_closed ht],
    by rw [State.memWrite_eram_range hd h1 h2, cartWriteRam_closed ht]⟩

theorem State.window_cell {i : Nat} (ht : ramTarget s.cart (a.toNat - 0xA000) = .cell i) (v : Byte) :
    (∀ k, s.memRead k a = s.cart.eram.read i) ∧
      s.memWrite a v = { s with cart := { s.cart with eram := s.cart.eram.write i v } } :=
  ⟨fun k => by rw [State.memRead_eram_range hd h1 h2, cartReadRam_cell ht],
    by rw [State.memWrite_eram_range hd h1 h2, cartWriteRam_cell ht]⟩

/-- R457: a cell of 4 bits, whose index repeats every 512 bytes of the window. -/
theorem State.window_nibble (ht : ramTarget s.cart (a.toNat - 0xA000) = .nibble ((a.toNat - 0xA000) % 0x200))
    (v : Byte) :
    (∀ k, s.memRead k a = byteOf (240 + (s.cart.eram.read (a.toNat % 512)).toNat % 16)) ∧
      s.memWrite a v =
        { s with cart := { s.cart with eram := s.cart.eram.write (a.toNat % 512) (byteOf (v.toNat % 16)) } } := by
  have hi : (a.toNat - 0xA000) % 0x200 = a.toNat % 512 := by omega
  rw [hi] at ht
  exact ⟨fun k => by rw [State.memRead_eram_range hd h1 h2, cartReadRam_nibble ht]; exact mbc2Shown_spec _,
    by rw [State.memWrite_eram_range hd h1 h2, cartWriteRam_nibble ht, mbc2Stored_spec]⟩

/-- R444: a bank of the RAM, if there is any. -/
theorem State.window_bank {b : Nat}
    (ht : ramTarget s.cart (a.toNat - 0xA000) = bankedCell s.cart b (a.toNat - 0xA000)) (v : Byte) :
    if s.cart.config.ramSize = 0 then (∀ k, s.memRead k a = 0xFF) ∧ s.memWrite a v = s
    else
      (∀ k, s.memRead k a =
        s.cart.eram.read ((b * 0x2000 + (a.toNat - 0xA000)) % s.cart.config.ramSize)) ∧
      s.memWrite a v = { s with cart := { s.cart with
        eram := s.cart.eram.write ((b * 0x2000 + (a.toNat - 0xA000)) % s.cart.config.ramSize) v } } := by
  unfold bankedCell at ht
  split at ht
  next h0 =>
    rw [if_pos h0]
    exact State.window_closed hd h1 h2 ht v
  next h0 =>
    rw [if_neg h0]
    exact State.window_cell hd h1 h2 ht v

/-- R467: a clock register: the latched one is read, the live one written. -/
theorem State.window_clock {m : Mbc3} {sel : BitVec 4} (hm : s.cart.mapper = .mbc3 m)
    (ht : ramTarget s.cart (a.toNat - 0xA000) = .clock sel) (v : Byte) :
    (∀ k, s.memRead k a = rtcRead m.latched sel) ∧
      s.memWrite a v = { s with cart := { s.cart with mapper := .mbc3 (rtcWrite m sel v) } } := by
  refine ⟨fun k => ?_, ?_⟩
  · rw [State.memRead_eram_range hd h1 h2, cartReadRam, ht, hm]
    rfl
  · rw [State.memWrite_eram_range hd h1 h2, cartWriteRam, ht, hm]
    rfl

end

/-- Settles O42: by scheme and enable bit, what `ramTarget` says is behind the window. -/
theorem cartridgeRamWindow : Obligations.CartridgeRamWindow := by
  unfold Obligations.CartridgeRamWindow
  intro s a v hd h1 h2 closed bank
  refine ⟨fun hm => ?_, fun m hm => ?_, fun m hm => ?_, fun m hm => ⟨fun he hs => ?_, fun he hs hn => ?_, fun he => ?_⟩,
    fun m hm => ?_⟩
  · exact State.window_bank hd h1 h2 (by rw [ramTarget, hm]) v
  · split
    next he => exact State.window_bank hd h1 h2 (by rw [ramTarget, hm]; exact if_pos he) v
    next he => exact State.window_closed hd h1 h2 (by rw [ramTarget, hm]; exact if_neg he) v
  · split
    next he => exact State.window_nibble hd h1 h2 (by rw [ramTarget, hm]; exact if_pos he) v
    next he => exact State.window_closed hd h1 h2 (by rw [ramTarget, hm]; exact if_neg he) v
  · exact State.window_bank hd h1 h2 (by rw [ramTarget, hm]; simp only [he, if_true, if_pos hs]) v
  · refine State.window_closed hd h1 h2 ?_ v
    rw [ramTarget, hm]
    simp only [he, if_true, if_neg hs]
    refine if_neg fun ⟨h8, hC, hc⟩ => ?_
    obtain hn | hn | hn := hn
    · exact nomatch hn.symm.trans hc
    · omega
    · omega
  · exact State.window_closed hd h1 h2 (by rw [ramTarget, hm]; simp only [he]; rfl) v
  · split
    next he => exact State.window_bank hd h1 h2 (by rw [ramTarget, hm]; exact if_pos he) v
    next he => exact State.window_closed hd h1 h2 (by rw [ramTarget, hm]; exact if_neg he) v

/-! ### The clock's registers, R465 to R467 -/

theorem setWidth_eq_byteOf {k : Nat} (x : BitVec k) : x.setWidth 8 = byteOf x.toNat :=
  BitVec.eq_of_toNat_eq (by simp [byteOf])

theorem rtcWrite_s (m : Mbc3) (v : Byte) :
    rtcWrite m 8 v = { m with live := { m.live with s := BitVec.ofNat 6 (v.toNat % 64) }, rtcSub := 0 } :=
  congrArg (fun x => { m with live := { m.live with s := x }, rtcSub := 0 }) (byte_setWidth v 6)

theorem rtcWrite_m (m : Mbc3) (v : Byte) :
    rtcWrite m 9 v = { m with live := { m.live with m := BitVec.ofNat 6 (v.toNat % 64) } } :=
  congrArg (fun x => { m with live := { m.live with m := x } }) (byte_setWidth v 6)

theorem rtcWrite_h (m : Mbc3) (v : Byte) :
    rtcWrite m 10 v = { m with live := { m.live with h := BitVec.ofNat 5 (v.toNat % 32) } } :=
  congrArg (fun x => { m with live := { m.live with h := x } }) (byte_setWidth v 5)

/-- R465: DH stores bits 0, 6 and 7. -/
theorem rtcWrite_dh (m : Mbc3) (v : Byte) : rtcWrite m 12 v = { m with live := { m.live with
    day8 := v.toNat % 2 == 1, halt := v.toNat / 64 % 2 == 1, carry := v.toNat / 128 == 1 } } := by
  have day8 : v.getLsbD 0 = (v.toNat % 2 == 1) := by rw [byte_getLsbD, Nat.pow_zero, Nat.div_one]
  have halt : v.getLsbD 6 = (v.toNat / 64 % 2 == 1) := byte_getLsbD v 6
  have carry : v.getLsbD 7 = (v.toNat / 128 == 1) := by
    rw [byte_getLsbD, show v.toNat / 2 ^ 7 % 2 = v.toNat / 128 by omega]
  rw [← day8, ← halt, ← carry]
  rfl

/-- Settles O43: `ramTarget_mbc3_clock` opens the window on the selected register. -/
theorem clockRegisters : Obligations.ClockRegisters := by
  unfold Obligations.ClockRegisters
  intro s m a v hd h1 h2 hm hc he reads leaves
  have access {sel : BitVec 4} {n : Nat} {m' : Mbc3} (h : m.ramSel = sel) (h8 : 8 ≤ sel.toNat) (hC : sel.toNat ≤ 12)
      (hr : rtcRead m.latched sel = byteOf n) (hw : rtcWrite m sel v = m') : reads n ∧ leaves m' := by
    subst h hw
    obtain ⟨hread, hwrite⟩ := State.window_clock hd h1 h2 hm (ramTarget_mbc3_clock hm he hc h8 hC _) v
    exact ⟨fun k => (hread k).trans hr, hwrite⟩
  exact ⟨
    fun h => access h (by decide) (by decide) (setWidth_eq_byteOf m.latched.s) (rtcWrite_s m v),
    fun h => access h (by decide) (by decide) (setWidth_eq_byteOf m.latched.m) (rtcWrite_m m v),
    fun h => access h (by decide) (by decide) (setWidth_eq_byteOf m.latched.h) (rtcWrite_h m v),
    fun h => access h (by decide) (by decide) (setWidth_eq_byteOf m.latched.dl) rfl,
    fun h => access h (by decide) (by decide) (rtcDh_spec m.latched) (rtcWrite_dh m v)⟩

/-! ### The clock counts, R468 -/

/-- The day counter, 9 bits. -/
def Rtc.days (r : Rtc) : Nat := 256 * bit r.day8 + r.dl.toNat

/-- The time in whole hours. -/
def Rtc.hours (r : Rtc) : Nat := r.days * 24 + r.h.toNat

/-- The time in whole minutes. -/
def Rtc.minutes (r : Rtc) : Nat := r.hours * 60 + r.m.toNat

/-- The time in seconds. -/
def Rtc.seconds (r : Rtc) : Nat := r.minutes * 60 + r.s.toNat

/-- Seconds, minutes and hours are in their ordinary ranges. -/
structure Rtc.Ordinary (r : Rtc) : Prop where
  s : r.s.toNat < 60
  m : r.m.toNat < 60
  h : r.h.toNat < 24

theorem Rtc.days_lt (r : Rtc) : r.days < 512 := by
  have := r.dl.isLt
  unfold days bit
  split <;> omega

/-- A counter of `w` bits that has not reached its limit `n` steps to it or towards it. -/
theorem toNat_succ {w n : Nat} {x : BitVec w} (hn : n < 2 ^ w) (hx : x.toNat < n) :
    (x + 1).toNat = x.toNat + 1 ∧ (x + 1 = BitVec.ofNat w n ↔ x.toNat + 1 = n) := by
  have h1 : (x + 1).toNat = x.toNat + 1 := by
    have hw : 1 < 2 ^ w := by omega
    have hone : (1 : BitVec w).toNat = 1 := Nat.mod_eq_of_lt hw
    rw [BitVec.toNat_add, hone, Nat.mod_eq_of_lt (by omega)]
  refine ⟨h1, ?_⟩
  rw [← BitVec.toNat_inj, h1, BitVec.toNat_ofNat, Nat.mod_eq_of_lt hn]

/-- R468: the successor of the 9-bit day counter, in the integers. -/
theorem nextDay_spec : ∀ (day8 : Bool) (dl : Byte),
    let day : BitVec 9 := BitVec.ofBool day8 ++ dl
    (day = 511 → 256 * bit day8 + dl.toNat = 511) ∧
    256 * bit ((day + 1).getLsbD 8) + ((day + 1).extractLsb' 0 8).toNat = (256 * bit day8 + dl.toNat + 1) % 512 := by
  decide +kernel

theorem rtcNextDay_days (r : Rtc) : (rtcNextDay r).days = (r.days + 1) % 512 := by
  obtain ⟨hlast, hnext⟩ := nextDay_spec r.day8 r.dl
  unfold rtcNextDay
  simp only
  split
  next h =>
    rw [show r.days = 511 from hlast h]
    simp [Rtc.days, bit]
  next => exact hnext

theorem rtcNextDay_keeps (r : Rtc) : (rtcNextDay r).h = r.h ∧ (rtcNextDay r).m = r.m ∧ (rtcNextDay r).s = r.s := by
  unfold rtcNextDay
  simp only
  split <;> exact ⟨rfl, rfl, rfl⟩

/-- A count `x` below `lim` that carries into one modulo `n`: together they count modulo `n * lim`. -/
theorem carry_count {lim n hi hi' x x' : Nat} (hx : x < lim) (hhi : hi < n)
    (hstep : (x + 1 = lim ∧ x' = 0 ∧ hi' = (hi + 1) % n) ∨ (x + 1 ≠ lim ∧ x' = x + 1 ∧ hi' = hi)) :
    hi' * lim + x' = (hi * lim + x + 1) % (n * lim) ∧ x' < lim := by
  obtain ⟨hlim, rfl, rfl⟩ | ⟨hlim, rfl, rfl⟩ := hstep
  · refine ⟨?_, by omega⟩
    rw [Nat.add_assoc, hlim, ← Nat.succ_mul, Nat.mul_mod_mul_right, Nat.add_zero]
  · refine ⟨?_, by omega⟩
    have hle : hi' * lim + lim ≤ n * lim := by
      rw [← Nat.succ_mul]
      exact Nat.mul_le_mul_right lim hhi
    rw [Nat.mod_eq_of_lt (by omega), Nat.add_assoc]

theorem rtcNextHour_hours {r : Rtc} (hh : r.h.toNat < 24) :
    ((rtcNextHour r).hours = (r.hours + 1) % (512 * 24) ∧ (rtcNextHour r).h.toNat < 24) ∧
      (rtcNextHour r).m = r.m ∧ (rtcNextHour r).s = r.s := by
  obtain ⟨hsucc, hcarry⟩ := toNat_succ (w := 5) (n := 24) (by decide) hh
  unfold rtcNextHour
  split
  next h =>
    obtain ⟨hh', hm', hs'⟩ := rtcNextDay_keeps { r with h := 0 }
    exact ⟨carry_count hh r.days_lt (.inl ⟨hcarry.mp h, congrArg BitVec.toNat hh', rtcNextDay_days _⟩), hm', hs'⟩
  next h => exact ⟨carry_count hh r.days_lt (.inr ⟨mt hcarry.mpr h, hsucc, rfl⟩), rfl, rfl⟩

theorem Rtc.hours_lt {r : Rtc} (hh : r.h.toNat < 24) : r.hours < 512 * 24 := by
  have := r.days_lt
  unfold hours
  omega

theorem rtcNextMinute_minutes {r : Rtc} (hm : r.m.toNat < 60) (hh : r.h.toNat < 24) :
    ((rtcNextMinute r).minutes = (r.minutes + 1) % (512 * 24 * 60) ∧ (rtcNextMinute r).m.toNat < 60) ∧
      (rtcNextMinute r).h.toNat < 24 ∧ (rtcNextMinute r).s = r.s := by
  obtain ⟨hsucc, hcarry⟩ := toNat_succ (w := 6) (n := 60) (by decide) hm
  have hhours := Rtc.hours_lt hh
  unfold rtcNextMinute
  split
  next h =>
    obtain ⟨⟨hc, hh'⟩, hm', hs'⟩ := rtcNextHour_hours (r := { r with m := 0 }) hh
    exact ⟨carry_count hm hhours (.inl ⟨hcarry.mp h, congrArg BitVec.toNat hm', hc⟩), hh', hs'⟩
  next h => exact ⟨carry_count hm hhours (.inr ⟨mt hcarry.mpr h, hsucc, rfl⟩), hh, rfl⟩

theorem Rtc.Ordinary.minutes_lt {r : Rtc} (h : r.Ordinary) : r.minutes < 512 * 24 * 60 := by
  have := Rtc.hours_lt h.h
  have := h.m
  unfold minutes
  omega

theorem Rtc.Ordinary.seconds_lt {r : Rtc} (h : r.Ordinary) : r.seconds < 512 * 86400 := by
  have := h.minutes_lt
  have := h.s
  unfold seconds
  omega

/-- R468: one second. -/
theorem Rtc.Ordinary.rtcSecond {r : Rtc} (ho : r.Ordinary) :
    (rtcSecond r).Ordinary ∧ (rtcSecond r).seconds = (r.seconds + 1) % (512 * 86400) := by
  obtain ⟨hsucc, hcarry⟩ := toNat_succ (w := 6) (n := 60) (by decide) ho.s
  have hminutes := ho.minutes_lt
  unfold Machine.rtcSecond
  split
  next h =>
    obtain ⟨⟨hc, hm'⟩, hh', hs'⟩ := rtcNextMinute_minutes (r := { r with s := 0 }) ho.m ho.h
    obtain ⟨ht, hlt⟩ := carry_count ho.s hminutes (.inl ⟨hcarry.mp h, congrArg BitVec.toNat hs', hc⟩)
    exact ⟨⟨hlt, hm', hh'⟩, ht⟩
  next h =>
    obtain ⟨ht, hlt⟩ := carry_count ho.s hminutes (.inr ⟨mt hcarry.mpr h, hsucc, rfl⟩)
    exact ⟨⟨hlt, ho.m, ho.h⟩, ht⟩

theorem Rtc.Ordinary.rtcSeconds {r : Rtc} (ho : r.Ordinary) (n : Nat) :
    (rtcSeconds n r).seconds = (r.seconds + n) % (512 * 86400) := by
  induction n generalizing r with
  | zero => exact (Nat.mod_eq_of_lt ho.seconds_lt).symm
  | succ n ih =>
    obtain ⟨ho', ht⟩ := ho.rtcSecond
    rw [Machine.rtcSeconds, ih ho', ht, Nat.mod_add_mod, Nat.add_right_comm, Nat.add_assoc]

/-- Settles O44: the cycles make whole seconds, each counted by `Rtc.Ordinary.rtcSecond`. -/
theorem clockCountsSeconds : Obligations.ClockCountsSeconds := by
  unfold Obligations.ClockCountsSeconds
  intro m n hsub hs hm hh days total
  exact ⟨rfl, Rtc.Ordinary.rtcSeconds ⟨hs, hm, hh⟩ _⟩

end Sys2Proof.Machine

/-! The serial port and the joypad (65_serial_joypad.md), and the invariant of the cartridge and the serial port. -/

namespace Sys2Proof.Machine

/-! ### The joypad, R500 to R502 -/

/-- The line of a button in P1 (R500). -/
def Button.line : Button → Nat
  | .right | .a => 0
  | .left | .b => 1
  | .up | .select => 2
  | .down | .start => 3

/-- The select bit of a button's group, 0 selecting it. -/
def Button.group : Button → Nat
  | .right | .left | .up | .down => 0
  | .a | .b | .select | .start => 1

/-- Whether a button is pressed. -/
def Joypad.holds (j : Joypad) : Button → Bool
  | .right => j.right
  | .left => j.left
  | .up => j.up
  | .down => j.down
  | .a => j.btnA
  | .b => j.btnB
  | .select => j.btnSelect
  | .start => j.btnStart

/-- A button pulls its line low: it is pressed and its group selected. -/
def Joypad.PullsLow (j : Joypad) (x : Button) : Prop := j.select.getLsbD x.group = false ∧ j.holds x = true

theorem Button.forall_iff {P : Button → Prop} : (∀ x, P x) ↔
    P .right ∧ P .left ∧ P .up ∧ P .down ∧ P .a ∧ P .b ∧ P .select ∧ P .start := by
  constructor
  · exact fun h => ⟨h _, h _, h _, h _, h _, h _, h _, h _⟩
  · rintro ⟨hright, hleft, hup, hdown, ha, hb, hselect, hstart⟩ x
    cases x <;> assumption

theorem Button.line_lt (x : Button) : x.line < 4 := by cases x <;> decide

theorem lowLines_getLsbD : ∀ b3 b2 b1 b0 : Bool,
    (lowLines b3 b2 b1 b0).getLsbD 0 = !b0 ∧ (lowLines b3 b2 b1 b0).getLsbD 1 = !b1 ∧
    (lowLines b3 b2 b1 b0).getLsbD 2 = !b2 ∧ (lowLines b3 b2 b1 b0).getLsbD 3 = !b3 := by decide

/-- R502: a line reads 1 when none of its buttons pulls it low. -/
theorem joyLines_getLsbD_iff (j : Joypad) {l : Nat} (hl : l < 4) :
    (joyLines j).getLsbD l = true ↔ ∀ x : Button, x.line = l → ¬j.PullsLow x := by
  obtain ⟨d0, d1, d2, d3⟩ := lowLines_getLsbD j.down j.up j.left j.right
  obtain ⟨a0, a1, a2, a3⟩ := lowLines_getLsbD j.btnStart j.btnSelect j.btnB j.btnA
  rw [Button.forall_iff]
  have hF : ∀ l, l < 4 → (0xF#4).getLsbD l = true := by decide
  have lines (low : BitVec 4) (sel : Bool) : (if sel then 0xF#4 else low).getLsbD l = (sel || low.getLsbD l) := by
    cases sel
    · rfl
    · exact hF l hl
  rw [joyLines, BitVec.getLsbD_and, lines, lines]
  interval_cases l
  all_goals
    simp only [d0, d1, d2, d3, a0, a1, a2, a3]
    simp [Button.line, Joypad.PullsLow, Button.group, Joypad.holds, or_iff_not_imp_left]

theorem select_pressButton (j : Joypad) (x : Button) (pressed : Bool) :
    (pressButton j x pressed).select = j.select := by cases x <;> rfl

theorem holds_pressButton (j : Joypad) (x : Button) (pressed : Bool) (y : Button) :
    (pressButton j x pressed).holds y = if y = x then pressed else j.holds y := by
  cases x <;> cases y <;> rfl

/-- R501: some line goes from 1 to 0. -/
theorem joyEdge_iff : ∀ old new : BitVec 4,
    joyEdge old new = true ↔ ∃ l, l < 4 ∧ old.getLsbD l = true ∧ new.getLsbD l = false := by decide +kernel

/-- R500: P1 shows the lines in its low bits. -/
theorem p1Read_getLsbD (j : Joypad) {l : Nat} (hl : l < 4) : (p1Read j).getLsbD l = (joyLines j).getLsbD l := by
  have h : ∀ (sel : BitVec 2) (low : BitVec 4),
      (0xC0 ||| (sel.setWidth 8 <<< 4) ||| low.setWidth 8 : Byte).setWidth 4 = low := by decide +kernel
  rw [← h j.select (joyLines j)]
  change _ = (BitVec.setWidth 4 (p1Read j)).getLsbD l
  rw [BitVec.getLsbD_setWidth, decide_eq_true hl, Bool.true_and]

theorem pullsLow_pressButton (j : Joypad) (x : Button) (pressed : Bool) (y : Button) :
    (pressButton j x pressed).PullsLow y ↔
      j.select.getLsbD y.group = false ∧ (if y = x then pressed else j.holds y) = true := by
  rw [Joypad.PullsLow, select_pressButton, holds_pressButton]

/-- R501: a button event requests Joypad when a line that no button pulled low is pulled low by one now. -/
theorem setButton_request_iff (j : Joypad) (x : Button) (pressed : Bool) : (setButton j x pressed).2 = true ↔
    ∃ y, (pressButton j x pressed).PullsLow y ∧ (joyLines j).getLsbD y.line = true := by
  rw [setButton, joyEdge_iff]
  constructor
  · rintro ⟨l, hl, hold, hnew⟩
    have hpulls : ¬ ∀ y : Button, y.line = l → ¬(pressButton j x pressed).PullsLow y := fun h =>
      Bool.eq_false_iff.mp hnew ((joyLines_getLsbD_iff _ hl).mpr h)
    push Not at hpulls
    obtain ⟨y, rfl, hy⟩ := hpulls
    exact ⟨y, hy, hold⟩
  · rintro ⟨y, hy, hold⟩
    refine ⟨y.line, y.line_lt, hold, Bool.eq_false_iff.mpr fun hnew => ?_⟩
    exact (joyLines_getLsbD_iff _ y.line_lt).mp hnew y rfl hy

/-- A line that read 1 is pulled low by the pressed button alone. -/
theorem pullsLow_pressButton_of_high {j : Joypad} {x y : Button} {pressed : Bool}
    (h : (joyLines j).getLsbD y.line = true) : (pressButton j x pressed).PullsLow y ↔
      y = x ∧ pressed = true ∧ j.select.getLsbD y.group = false := by
  have hold := (joyLines_getLsbD_iff j y.line_lt).mp h y rfl
  rw [pullsLow_pressButton]
  split
  next e => simp [e, and_comm]
  next e => exact ⟨fun hy => absurd hy hold, fun hy => absurd hy.1 e⟩

theorem setButton_request (j : Joypad) (x : Button) (pressed : Bool) : (setButton j x pressed).2 = true ↔
    pressed = true ∧ j.select.getLsbD x.group = false ∧ (p1Read j).getLsbD x.line = true := by
  rw [setButton_request_iff, p1Read_getLsbD j x.line_lt]
  constructor
  · rintro ⟨y, hy, hline⟩
    obtain ⟨rfl, hpressed, hsel⟩ := (pullsLow_pressButton_of_high hline).mp hy
    exact ⟨hpressed, hsel, hline⟩
  · rintro ⟨hpressed, hsel, hline⟩
    exact ⟨x, (pullsLow_pressButton_of_high hline).mpr ⟨rfl, hpressed, hsel⟩, hline⟩

/-- Settles O52: `setButton_request`, with each button's line and group written out. -/
theorem joypadRequests : Obligations.JoypadRequests := by
  unfold Obligations.JoypadRequests
  intro j x
  have release : (setButton j x false).2 = false :=
    Bool.eq_false_iff.mpr fun h => nomatch ((setButton_request j x false).mp h).1
  have press := setButton_request j x true
  simp only [true_and] at press
  cases x <;> exact ⟨release, press⟩

/-! ### The serial port, R492 to R496 -/

theorem exchangeByte_echo (x : Byte) : exchangeByte x echoDevice = (x, echoDevice) := by
  have h : ((List.range 256).map (BitVec.ofNat 8)).getD x.toNat 0xFF = x := by
    have hx : x.toNat < (List.range 256).length := by simpa using x.isLt
    rw [List.getD_eq_getElem?_getD, List.getElem?_map, List.getElem?_eq_getElem hx]
    simp
  exact congrArg (·, echoDevice) h

/-- R492: the start of an internally clocked transfer. -/
theorem scWrite_internal (p : Serial) :
    scWrite p 0x81 = { p with sc7 := true, sc0 := true, busy := true, internal := true, remaining := 4096 } := rfl

/-- R493, R496: the end of a transfer with the echo device. -/
theorem serialComplete_echo {p : Serial} (h : p.device = echoDevice) :
    serialComplete p = { p with sc7 := false, busy := false } := by
  unfold serialComplete
  rw [h, exchangeByte_echo, ← h]

/-- R493: the countdown of an internally clocked transfer. -/
theorem serialAdvance_running {n : Nat} {p : Serial} (hb : p.busy = true) (hi : p.internal = true)
    (hn : n < p.remaining) : serialAdvance n p = ({ p with remaining := p.remaining - n }, false) := by
  simp only [serialAdvance, hb, hi, Bool.and_self, if_true]
  exact if_neg (by omega)

/-- R493: its end. -/
theorem serialAdvance_complete {n : Nat} {p : Serial} (hb : p.busy = true) (hi : p.internal = true)
    (hn : p.remaining ≤ n) : serialAdvance n p = (serialComplete { p with remaining := 0 }, true) := by
  have h0 : p.remaining - n = 0 := by omega
  simp only [serialAdvance, hb, hi, Bool.and_self, if_true, h0]

/-- R496: its end with the echo device. -/
theorem serialAdvance_echo {n : Nat} {p : Serial} (hb : p.busy = true) (hi : p.internal = true)
    (hdev : p.device = echoDevice) (hn : p.remaining ≤ n) :
    serialAdvance n p = ({ p with remaining := 0, sc7 := false, busy := false }, true) := by
  rw [serialAdvance_complete hb hi hn, serialComplete_echo (p := { p with remaining := 0 }) hdev]

/-- Settles O51: an advance is `serialAdvance_running` or `serialAdvance_echo` from 4096. -/
theorem serialLoopback : Obligations.SerialLoopback := by
  unfold Obligations.SerialLoopback
  intro s n hd hdev t
  have ht : t = { s with serial := scWrite s.serial 0x81 } := s.memWrite_io hd _ _ ownerOf_sc _
  clear_value t
  subst ht
  refine ⟨fun hn => ⟨?_, rfl⟩, fun hn => ?_⟩
  · rw [State.serialAdvance, serialAdvance_running (p := scWrite s.serial 0x81) rfl rfl hn, scWrite_internal]
    simp [requestIf]
  · rw [State.serialAdvance, serialAdvance_echo (p := scWrite s.serial 0x81) rfl rfl hdev hn]
    rfl

theorem Serial.inv_of_idle {p : Serial} (h7 : p.sc7 = false) (hbusy : p.busy = false) (hrem : p.remaining ≤ 4096)
    (hbits : p.bits < 8) : p.Inv := by
  simp [Serial.Inv, h7, hbusy, hrem, hbits]

/-- R492: the start or the end of a transfer. -/
theorem Serial.Inv.scWrite {p : Serial} (h : p.Inv) (v : Byte) : (scWrite p v).Inv := by
  obtain ⟨hsc7, hrem, hbits, hclock, hcount⟩ := h
  unfold Machine.scWrite
  simp only
  split
  next h7 =>
    split
    next h0 => exact ⟨h7, Nat.le_refl _, hbits, fun _ => h0.symm, fun _ _ => Nat.zero_lt_succ _⟩
    next h0 => exact ⟨h7, hrem, Nat.zero_lt_succ _, fun _ => (Bool.eq_false_iff.mpr h0).symm, fun _ hi => nomatch hi⟩
  next h7 => exact inv_of_idle (Bool.eq_false_iff.mpr h7) rfl hrem hbits

theorem Serial.inv_serialComplete {p : Serial} (hrem : p.remaining ≤ 4096) (hbits : p.bits < 8) :
    (serialComplete p).Inv := inv_of_idle rfl rfl hrem hbits

theorem Serial.Inv.serialAdvance {p : Serial} (h : p.Inv) (n : Nat) : (serialAdvance n p).1.Inv := by
  by_cases hrun : p.busy = true ∧ p.internal = true
  · obtain ⟨hsc7, hrem, hbits, hclock, hcount⟩ := h
    by_cases hn : n < p.remaining
    · rw [serialAdvance_running hrun.1 hrun.2 hn]
      exact ⟨hsc7, by change p.remaining - n ≤ 4096; omega, hbits, hclock, fun _ _ => Nat.sub_pos_of_lt hn⟩
    · rw [serialAdvance_complete hrun.1 hrun.2 (Nat.le_of_not_lt hn)]
      exact inv_serialComplete (Nat.zero_le _) hbits
  · rw [Machine.serialAdvance, if_neg (by simpa using hrun)]
    exact h

/-- R495: the eighth pulse completes the transfer, so the bit count stays below 8. -/
theorem Serial.Inv.serialPulse {p : Serial} (h : p.Inv) : (serialPulse p).1.Inv := by
  have hi := h
  obtain ⟨hsc7, hrem, hbits, hclock, hcount⟩ := h
  unfold Machine.serialPulse
  split
  next hrun =>
    split
    next => exact inv_serialComplete hrem (Nat.zero_lt_succ _)
    next h8 => exact ⟨hsc7, hrem, by change p.bits + 1 < 8; omega, hclock, hcount⟩
  next => exact hi

/-- R71: a store starts or ends a transfer, or writes SB at most. -/
theorem State.memWrite_serial (s : State) (a : Word) (v : Byte) :
    (s.memWrite a v).serial = Machine.scWrite s.serial v ∨
      (s.memWrite a v).serial = { s.serial with sb := (s.memWrite a v).serial.sb } := by
  unfold State.memWrite
  split
  · exact .inr rfl
  · unfold State.rawWrite
    split
    case h_7 r _ =>
      cases r
      case sc => exact .inl rfl
      all_goals exact .inr rfl
    all_goals exact .inr rfl

/-! ### The bank registers and the clock, R450 to R470 -/

/-- R451: writing 0 to BANK1 selects 1. -/
theorem mbc1Write_bank1_ne {m : Mbc1} (h : m.bank1 ≠ 0) (addr : Nat) (v : Byte) : (mbc1Write m addr v).bank1 ≠ 0 := by
  have hv := nonZero_ne 5 (by decide) (v.setWidth 5)
  unfold mbc1Write
  split_ifs
  · exact h
  · exact hv
  · exact h
  · exact h

/-- R455: so does writing 0 to the bank number of MBC2. -/
theorem mbc2Write_romBank_ne {m : Mbc2} (h : m.romBank ≠ 0) (addr : Nat) (v : Byte) :
    (mbc2Write m addr v).romBank ≠ 0 := by
  have hv := nonZero_ne 4 (by decide) (v.setWidth 4)
  unfold mbc2Write
  split_ifs
  · exact hv
  · exact h
  · exact h

/-- R461: and to that of MBC3. -/
theorem mbc3Write_romBank_ne {m : Mbc3} (h : m.romBank ≠ 0) (addr : Nat) (v : Byte) :
    (mbc3Write m addr v).romBank ≠ 0 := by
  have hv := nonZero_ne 7 (by decide) (v.setWidth 7)
  unfold mbc3Write
  split_ifs
  · exact h
  · exact hv
  all_goals exact h

theorem mbc3Write_rtcSub (m : Mbc3) (addr : Nat) (v : Byte) : (mbc3Write m addr v).rtcSub = m.rtcSub := by
  unfold mbc3Write
  split_ifs <;> rfl

theorem Mapper.Inv.cartWrite {c : Cart} (h : c.mapper.Inv) (addr : Nat) (v : Byte) :
    (cartWrite c addr v).mapper.Inv := by
  unfold Machine.cartWrite
  cases hm : c.mapper <;> rw [hm] at h
  case noMapper | mbc5 => trivial
  case mbc1 m => exact mbc1Write_bank1_ne h addr v
  case mbc2 m => exact mbc2Write_romBank_ne h addr v
  case mbc3 m =>
    obtain ⟨hbank, hsub⟩ := h
    exact ⟨mbc3Write_romBank_ne hbank addr v, by rw [mbc3Write_rtcSub]; exact hsub⟩

/-- R467: a write to S clears `rtc_sub`; the other registers leave it. -/
theorem rtcWrite_rtcSub_le (m : Mbc3) (sel : BitVec 4) (v : Byte) : (rtcWrite m sel v).rtcSub ≤ m.rtcSub := by
  unfold rtcWrite
  split
  · exact Nat.zero_le _
  all_goals exact Nat.le_refl _

theorem Mapper.Inv.cartWriteRam {c : Cart} (h : c.mapper.Inv) (off : Nat) (v : Byte) :
    (cartWriteRam c off v).mapper.Inv := by
  cases ht : ramTarget c off with
  | closed => rw [cartWriteRam_closed ht]; exact h
  | cell i => rw [cartWriteRam_cell ht]; exact h
  | nibble i => rw [cartWriteRam_nibble ht]; exact h
  | clock sel =>
    obtain ⟨m, hm, hw⟩ := cartWriteRam_clock c off v sel ht
    rw [hm] at h
    obtain ⟨hbank, hsub⟩ := h
    rw [hw]
    exact ⟨by rw [(rtcWrite_keeps m sel v).2.1]; exact hbank, Nat.lt_of_le_of_lt (rtcWrite_rtcSub_le m sel v) hsub⟩

/-- R468, R470: an advance moves the clock alone, `rtc_sub` modulo a second. -/
theorem Mapper.Inv.cartAdvance {c : Cart} (h : c.mapper.Inv) (n : Nat) : (cartAdvance n c).mapper.Inv := by
  unfold Machine.cartAdvance
  split
  next m hm =>
    split
    next =>
      rw [hm] at h
      exact ⟨h.1, Nat.mod_lt _ (by decide)⟩
    next => exact h
  next => exact h

/-- R476: the clock is the cartridge's own, the rest the reset values. -/
theorem Mapper.Inv.reset {mp : Mapper} (h : mp.Inv) {rp : ResetParams} (hr : rp.BankInv) : (rp.mapper mp).Inv := by
  obtain ⟨h1, h2, h3⟩ := hr
  cases mp
  case noMapper | mbc5 => trivial
  case mbc1 => exact h1
  case mbc2 => exact h2
  case mbc3 => exact ⟨h3, h.2⟩

/-- R61: a store reaches the cartridge through one of its two windows. -/
theorem State.memWrite_cart (s : State) (a : Word) (v : Byte) :
    (s.memWrite a v).cart = s.cart ∨ (∃ n, (s.memWrite a v).cart = Machine.cartWrite s.cart n v) ∨
      ∃ off, (s.memWrite a v).cart = Machine.cartWriteRam s.cart off v := by
  unfold State.memWrite
  split
  · exact .inl rfl
  · unfold State.rawWrite
    split
    case h_1 => exact .inr (.inl ⟨_, rfl⟩)
    case h_3 => exact .inr (.inr ⟨_, rfl⟩)
    case h_7 => exact .inl (ioWrite_cart _ _ _)
    all_goals exact .inl rfl

/-! ### The invariant of the devices -/

theorem State.advance_cart_serial (n : Nat) (s : State) : (s.advance n).cart = Machine.cartAdvance n s.cart ∧
    (s.advance n).serial = (Machine.serialAdvance n s.serial).1 := by
  obtain ⟨p, q, e⟩ := State.ppuAdvance_blocks n s
  unfold State.advance
  rw [e]
  exact ⟨rfl, rfl⟩

theorem deviceInv_blockInvariant : BlockInvariant State.DeviceInv where
  cpu _ _ _ h := h
  ifReg _ _ h := h
  store s a v h := by
    obtain ⟨hmapper, hserial, hreset⟩ := h
    unfold State.DeviceInv
    rw [State.memWrite_params]
    refine ⟨?_, ?_, hreset⟩
    · obtain hc | ⟨n, hc⟩ | ⟨off, hc⟩ := s.memWrite_cart a v <;> rw [hc]
      · exact hmapper
      · exact hmapper.cartWrite n v
      · exact hmapper.cartWriteRam off v
    · obtain hs | hs := s.memWrite_serial a v <;> rw [hs]
      · exact hserial.scWrite v
      · exact hserial
  inputs _ _ h := h
  event s e h := by
    have hi := h
    obtain ⟨hmapper, hserial, hbank, hresetSerial⟩ := h
    cases e
    case serialPulse => exact ⟨hmapper, hserial.serialPulse, hbank, hresetSerial⟩
    case reset => exact ⟨hmapper.reset hbank, hresetSerial, hbank, hresetSerial⟩
    all_goals exact hi
  advance s n h := by
    obtain ⟨hmapper, hserial, hreset⟩ := h
    obtain ⟨hc, hs⟩ := s.advance_cart_serial n
    unfold State.DeviceInv
    rw [(State.advance_keeps n s).2.2, hc, hs]
    exact ⟨hmapper.cartAdvance n, hserial.serialAdvance n, hreset⟩

/-- Settles O59: stores, host events and advances keep the bank registers, the clock and the serial port in range. -/
theorem stepKeepsDevices : Obligations.StepKeepsDevices := by
  unfold Obligations.StepKeepsDevices
  exact fun _ _ h hs => deviceInv_blockInvariant.of_step h hs

end Sys2Proof.Machine
